-- ==== Sys2Proof/Word.lean ====
section
/-! DEFINITION. The words, the field ranges of R2 and the fixed-size tables that every block of the part is made of. -/

namespace Sys2Proof

/-- A 32-bit word of the register window (chapter "Register window, service framing and data layouts"). -/
abbrev Word := BitVec 32

/-- A byte of a link frame (R102). -/
abbrev Byte := BitVec 8

/-- R2: channel, 0 to 7. -/
abbrev Chan := Fin 8

/-- R2: rank, 0 to 3. -/
abbrev Rank := Fin 4

/-- R2: bank, 0 to 31. -/
abbrev Bank := Fin 32

/-- R2: row, 0 to 262143. -/
abbrev Row := Fin 262144

/-- R2: column, 0 to 1023. -/
abbrev Col := Fin 1024

/-- R13: index of a CET entry, 0 to 127. -/
abbrev CetIdx := Fin 128

/-- R42: index of a retirement entry, 0 to 31. -/
abbrev RetIdx := Fin 32

/-- R131: one of a channel's four request slots. -/
abbrev Tag := Fin 4

/-- R11: a value of the 32-bit event clock, in milliseconds. -/
abbrev Time := BitVec 32

/-- A table of exactly `n` cells. The size travels with the data, so that an index of type `Fin n` always names a cell. -/
structure Table (α : Type) (n : Nat) where
  cells : List α
  size  : cells.length = n
deriving DecidableEq, Repr

/-- The content of cell `i`. -/
def Table.get {α : Type} {n : Nat} (t : Table α n) (i : Fin n) : α :=
  t.cells[i.val]'(by rw [t.size]; exact i.isLt)

/-- The table with cell `i` holding `x` and every other cell as it was. -/
def Table.set {α : Type} {n : Nat} (t : Table α n) (i : Fin n) (x : α) : Table α n :=
  ⟨t.cells.set i.val x, by rw [List.length_set, t.size]⟩

/-- The table with cell `i` passed through `f`. -/
def Table.modify {α : Type} {n : Nat} (t : Table α n) (i : Fin n) (f : α → α) : Table α n :=
  t.set i (f (t.get i))

/-- The table with every cell passed through `f`. -/
def Table.map {α β : Type} {n : Nat} (t : Table α n) (f : α → β) : Table β n :=
  ⟨t.cells.map f, by rw [List.length_map, t.size]⟩

/-- The table whose cells all hold `x`. -/
def Table.fill {α : Type} (n : Nat) (x : α) : Table α n :=
  ⟨List.replicate n x, List.length_replicate⟩

/-- The lowest index whose cell satisfies `p`. -/
def Table.find {α : Type} {n : Nat} (t : Table α n) (p : α → Bool) : Option (Fin n) :=
  (List.finRange n).find? (fun i => p (t.get i))

/-- The number of cells that satisfy `p`. -/
def Table.count {α : Type} {n : Nat} (t : Table α n) (p : α → Bool) : Nat :=
  t.cells.countP p

end Sys2Proof
end

