-- ==== Sys2Proof/Config.lean ====
section
/-! DEFINITION. The sizes, limits and default settings that the manual fixes for the part. The manual leaves no value of a
step open, so there is no free value here. The one level that it leaves open, SDO in the data bytes of a write frame, is an argument
of `Sys2Proof.Machine.spiOut` (log entry 22). -/

namespace Sys2Proof.Config

/-- R10: the largest value of a saturating counter. -/
def counterMax : Nat := 65535

/-- R14: at most 96 entries of the CET are pinned. -/
def pinLimit : Nat := 96

/-- R65: the UEL holds at most 16 records. -/
def uelSize : Nat := 16

/-- R85: an intake queue holds at most 6 reports. -/
def queueSize : Nat := 6

/-- R147: the verify queue holds at most 8 jobs. -/
def verifySize : Nat := 8

/-- R111: the sync attempt timer starts with 50 ms. -/
def syncAttemptMs : Nat := 50

/-- R111: the link fails at the expiry of its third attempt. -/
def syncAttempts : Nat := 3

/-- R114: four frames in a row that fail the check fail the link. -/
def checkFailureLimit : Nat := 4

/-- R137: three reply timeouts in a row fail the link. -/
def timeoutLimit : Nat := 3

/-- R11: the event clock advances at every hundredth pacing tick. -/
def ticksPerMs : Nat := 100

/-- R12, R17: a leak interval is counted as 1000 ms for each second. -/
def msPerSecond : Nat := 1000

/-- R15: the default threshold. -/
def defaultThreshold : Nat := 16

/-- R15: the default leak interval, in seconds. -/
def defaultLeakInterval : Nat := 60

/-- R68: the default system window, in milliseconds. -/
def defaultSystemWindow : Nat := 500

/-- R68: the default service window, in milliseconds. -/
def defaultServiceWindow : Nat := 2000

/-- R107: the credit return batch after Full reset. -/
def defaultBatch : Nat := 2

/-- R127: the default pacing interval, in units of 10 µs. -/
def defaultPacing : Nat := 100

/-- R127: the default segment size, in rows. -/
def defaultSegment : Nat := 16

/-- R127: the default reply timeout, in milliseconds. -/
def defaultReplyTimeout : Nat := 20

/-- R147: the default reads total R. -/
def defaultReads : Nat := 4

/-- R147: the default persist threshold P. -/
def defaultPersist : Nat := 3

/-- R185: the part code of the identification register, hexadecimal 0C08. -/
def partCode : Nat := 0x0C08

/-- R185: the revision of the identification register. -/
def revision : Nat := 1

end Sys2Proof.Config
end

