-- ==== Sys2Proof/Syntax.lean ====
section
/-! DEFINITION. The commands and events of the part: one constructor of `Instr` for each row of spec/opcode_table.json, with
the operands that the outside supplies (a port and the data written, a channel and the fields of an arriving frame, the timer
whose expiry is taken). A row that the command engine takes has no operand: which mailbox is served, which
command it is and its parameters all stand in the mailboxes (R164, R165). -/

namespace Sys2Proof

/-- The two register ports (R160). -/
inductive Port where
  /-- the host's parallel port -/
  | system
  /-- the board management controller's SPI port -/
  | service
deriving DecidableEq, Repr

/-- R103: the class of an ERROR report, coded in this order (R188). -/
inductive ErrClass where
  | bit | symbol | uncorrectable | poison
deriving DecidableEq, Repr

/-- R13: the class of a corrected error; SYMBOL outranks BIT. -/
inductive CeClass where
  | bit | symbol
deriving DecidableEq, Repr

/-- R103: the origin that an ERROR frame carries. -/
inductive LinkOrigin where
  | demand | controller
deriving DecidableEq, Repr

/-- R103: the result of a scrub reply. -/
inductive ReplyResult where
  | clean | corrected | uncorrectable | refused
deriving DecidableEq, Repr

/-- R85, R103: the payload of an ERROR frame. Every field has exactly its field range (R2). -/
structure ErrorReport where
  cls    : ErrClass
  origin : LinkOrigin
  rank   : Rank
  bank   : Bank
  row    : Row
  column : Col
deriving DecidableEq, Repr

/-- R85, R103: the payload of a SCRUB_REPLY frame. Every field is carried as it arrived. -/
structure ScrubReply where
  tag        : Tag
  request    : BitVec 8
  result     : ReplyResult
  cls        : CeClass
  errorCount : BitVec 8
  column     : Col
deriving DecidableEq, Repr

/-- One constructor per row of spec/opcode_table.json. -/
inductive Instr where
  /-- FULL_RESET (R184): RST_N is asserted, or power-up. -/
  | fullReset
  /-- FULL_RESET_END (R184): the rising edge of RST_N. -/
  | fullResetEnd
  /-- PACING_BASE_TICK (R12): one 10 µs tick. -/
  | pacingBaseTick
  /-- EVENT_CLOCK_ADVANCE (R11): the advance that a hundredth tick brings. -/
  | eventClockAdvance
  /-- COMMAND_WRITE (R161): a port writes COMMAND. -/
  | commandWrite (p : Port) (v : Word)
  /-- PARAM_WRITE (R162): a port writes PARAM0 to PARAM5. -/
  | paramWrite (p : Port) (k : Fin 6) (v : Word)
  /-- MAILBOX_STATUS_WRITE (R162): a port writes register index 2. -/
  | mailboxStatusWrite (p : Port) (v : Word)
  /-- RESULT0_READ (R163): a port reads RESULT0; `edge` says that the read reaches its side-effect edge (R186). -/
  | result0Read (p : Port) (edge : Bool)
  /-- EVENT_CLEAR_WRITE (R180). -/
  | eventClearWrite (p : Port) (v : Word)
  /-- LINE_MASK_WRITE (R181). -/
  | lineMaskWrite (p : Port) (v : Word)
  /-- REGISTER_WRITE_IGNORED (R185): a write to a register index that has no write behaviour. -/
  | registerWriteIgnored (p : Port) (index : Fin 64) (v : Word)
  /-- BAD_COMMAND (R166): the engine takes a command whose code names none. -/
  | badCommand
  /-- CONFIGURE_CHANNEL (R123), taken by the engine; so are all up to ENGINE_RESET. -/
  | configureChannel
  | linkEnable
  | linkDisable
  | resyncLink
  | setPolicy
  | readCet
  | findCet
  | clearCetEntry
  | clearCetAll
  | pinCet
  | unpinCet
  | startVerify
  | readRetire
  | findRetire
  | addRetire
  | confirmRetire
  | rejectRetire
  | removeRetire
  | readUe
  | ackUe
  | readUeOverflow
  | scrubStart
  | scrubStop
  | setCursor
  | setPacing
  | setHoldPolicy
  | setTimeout
  | readCounters
  | injectReport
  | readStatus
  | setAuthority
  | setServiceFirst
  | clearFatal
  | engineReset
  /-- PURGE_VISIT (R60): the purge visits its next CET index. -/
  | purgeVisit
  /-- ERROR (R117): an ERROR frame that passes the check arrives. -/
  | error (ch : Chan) (seq : BitVec 8) (report : ErrorReport)
  /-- SCRUB_REPLY (R117): a SCRUB_REPLY frame that passes the check arrives. -/
  | scrubReply (ch : Chan) (seq : BitVec 8) (reply : ScrubReply)
  /-- HOLD (R138): a HOLD frame that passes the check arrives. -/
  | hold (ch : Chan) (seq : BitVec 8)
  /-- RESUME (R140): a RESUME frame that passes the check arrives. -/
  | resume (ch : Chan) (seq : BitVec 8)
  /-- SYNC (R112, R119): a SYNC frame that passes the check arrives. -/
  | sync (ch : Chan) (seq : BitVec 8)
  /-- UNKNOWN_KIND_FRAME (R116): a frame that passes the check arrives and its byte 0 names no upstream kind. -/
  | unknownKindFrame (ch : Chan) (seq : BitVec 8) (kind : Byte)
  /-- FRAME_CHECK_FAILURE (R114): a frame arrives that fails the check. -/
  | frameCheckFailure (ch : Chan)
  /-- SYNC_ATTEMPT_EXPIRY (R111). -/
  | syncAttemptExpiry (ch : Chan)
  /-- FRAME_TRANSMISSION (R104): the transmitter begins its next waiting frame. -/
  | frameTransmission (ch : Chan)
  /-- INTAKE_TAKE (R90). -/
  | intakeTake
  /-- ISSUE_EVENT (R132). -/
  | issueEvent (ch : Chan)
  /-- PACING_EXPIRY (R130). -/
  | pacingExpiry (ch : Chan)
  /-- REPLY_TIMEOUT (R136): the reply timer of a tag expires. -/
  | replyTimeout (ch : Chan) (tag : Tag)
  /-- HOLD_CEILING_EXPIRY (R140). -/
  | holdCeilingExpiry (ch : Chan)
  /-- SYSTEM_WINDOW_EXPIRY (R74): the window of the OPEN record at a position of the UEL expires. -/
  | systemWindowExpiry (position : Fin 16)
  /-- SERVICE_WINDOW_EXPIRY (R75): the window of the HANDED_OVER record at a position of the UEL expires. -/
  | serviceWindowExpiry (position : Fin 16)
  /-- LEAK_EXPIRY (R29). -/
  | leakExpiry
  /-- FRAME_TRANSMISSION_END (R104): the transmitter finishes the frame it is transmitting. -/
  | frameTransmissionEnd (ch : Chan)
  /-- SCRUB_CONTROL_BAD_ACTION (R143): the engine takes a SCRUB_CONTROL whose action code names no action. -/
  | scrubControlBadAction
deriving DecidableEq, Repr

end Sys2Proof
end

