-- ==== Sys2Proof/WellFormed.lean ====
section
/-! DEFINITION. Which terms of `Instr` are a row of the table with operands that the part can meet. The types of the operands
hold every field range (R2, R103); two operands are left to check. -/

namespace Sys2Proof

/-- R185: the register indices at which a write is ignored from either port: all but the mailbox status, COMMAND, the six
parameter words, EVENT_CLEAR and the line mask. -/
def writeIgnored (index : Fin 64) : Bool :=
  !(decide (2 ≤ index.val) && decide (index.val ≤ 9)) && index.val != 17 && index.val != 18

/-- R189: byte 0 names one of the five upstream kinds. -/
def upstreamKind (kind : Byte) : Bool :=
  decide (1 ≤ kind.toNat) && decide (kind.toNat ≤ 5)

/-- The check of a command's operands. -/
def Instr.wellFormed (c : Instr) : Bool :=
  match c with
  | .registerWriteIgnored _ index _ => writeIgnored index
  | .unknownKindFrame _ _ kind => !upstreamKind kind
  | .fullReset => true
  | .fullResetEnd => true
  | .pacingBaseTick => true
  | .eventClockAdvance => true
  | .commandWrite _ _ => true
  | .paramWrite _ _ _ => true
  | .mailboxStatusWrite _ _ => true
  | .result0Read _ _ => true
  | .eventClearWrite _ _ => true
  | .lineMaskWrite _ _ => true
  | .badCommand => true
  | .configureChannel => true
  | .linkEnable => true
  | .linkDisable => true
  | .resyncLink => true
  | .setPolicy => true
  | .readCet => true
  | .findCet => true
  | .clearCetEntry => true
  | .clearCetAll => true
  | .pinCet => true
  | .unpinCet => true
  | .startVerify => true
  | .readRetire => true
  | .findRetire => true
  | .addRetire => true
  | .confirmRetire => true
  | .rejectRetire => true
  | .removeRetire => true
  | .readUe => true
  | .ackUe => true
  | .readUeOverflow => true
  | .scrubStart => true
  | .scrubStop => true
  | .setCursor => true
  | .setPacing => true
  | .setHoldPolicy => true
  | .setTimeout => true
  | .readCounters => true
  | .injectReport => true
  | .readStatus => true
  | .setAuthority => true
  | .setServiceFirst => true
  | .clearFatal => true
  | .engineReset => true
  | .purgeVisit => true
  | .error _ _ _ => true
  | .scrubReply _ _ _ => true
  | .hold _ _ => true
  | .resume _ _ => true
  | .sync _ _ => true
  | .frameCheckFailure _ => true
  | .syncAttemptExpiry _ => true
  | .frameTransmission _ => true
  | .intakeTake => true
  | .issueEvent _ => true
  | .pacingExpiry _ => true
  | .replyTimeout _ _ => true
  | .holdCeilingExpiry _ => true
  | .systemWindowExpiry _ => true
  | .serviceWindowExpiry _ => true
  | .leakExpiry => true
  | .frameTransmissionEnd _ => true
  | .scrubControlBadAction => true

end Sys2Proof
end

