-- ==== Sys2Proof/Decode.lean ====
section
/-! DEFINITION. The decoder over the opcode table's bits. No row of spec/opcode_table.json gives any bits (each row's "fields"
is empty and none has "fixed"), so no word spells a command. How a bus cycle or a link frame becomes a command is said by
Machine/Ports.lean (R185 to R187) and Machine/Frames.lean (R189). -/

namespace Sys2Proof

/-- The command that the `nbits` bits of `w` spell by the table's bits: none, since no row gives bits. -/
def decodeTableWord (_nbits _w : Nat) : Option Instr := none

end Sys2Proof
end

