-- ==== Sys2Proof/Machine/State.lean ====
section
/-! DEFINITION. The state of the part as plain data, block by block as the scope's block overview lists them, the ways a step
can stop, and the state after Full reset. Counts that the manual keeps over the entries of a table (occupancy, pinned count,
PROPOSED and CONFIRMED counts, the UEL summary) and the three output lines are functions of this state
(Machine/Registers.lean, Machine/Flags.lean), not second copies of it. -/

namespace Sys2Proof.Machine

/-- A timer of R12. `none`: stopped. `some n`: n units remain. `some 0`: the time has run out and the expiry has not been
taken by the owning block yet; a timer that is cancelled or started again then loses that expiry (R12). -/
abbrev Timer := Option Nat

/-- R2: a memory location, every field within its field range. -/
structure Loc where
  channel : Chan
  rank    : Rank
  bank    : Bank
  row     : Row
  column  : Col
deriving DecidableEq, Repr

/-- R6: a key. Channel, rank and bank are always present. -/
structure Key where
  channel : Chan
  rank    : Rank
  bank    : Bank
  row     : Option Row
  column  : Option Col
deriving DecidableEq, Repr

/-- R7: a range of rows of one bank. -/
structure Range where
  channel : Chan
  rank    : Rank
  bank    : Bank
  first   : Row
  last    : Row
deriving DecidableEq, Repr

/-- R3: the geometry of a channel. Allowed values are checked by CONFIGURE_CHANNEL (R123). -/
structure Geometry where
  ranks : Nat
  banks : Nat
  rows  : Nat
deriving DecidableEq, Repr

/-- R5: the granularity of the CET. -/
inductive Granularity where
  | cell | row | bank
deriving DecidableEq, Repr

/-- R15: when an entry proposes a retirement range. -/
inductive ProposeMode where
  | off | onThreshold | onPersistent
deriving DecidableEq, Repr

/-- R66: where an error was found; a CE record carries the first four alone (R18). -/
inductive Origin where
  | demand | controller | patrol | injected | verify
deriving DecidableEq, Repr

/-- R13: the set of origins that counted records carried. -/
structure OriginSet where
  demand     : Bool
  controller : Bool
  patrol     : Bool
  injected   : Bool
deriving DecidableEq, Repr

/-- R13: the state of a CET entry. -/
inductive CetState where
  | tracking | overThreshold
deriving DecidableEq, Repr

/-- R13, R31: whether a verify job for the entry is in the queue, and whether it is the head. -/
inductive VerifyStatus where
  | idle | queued | running
deriving DecidableEq, Repr

/-- R154: the outcome of a verify job. -/
inductive VerifyOutcome where
  | persistent | intermittent | notReproduced | inconclusive
deriving DecidableEq, Repr

/-- R13: a valid CET entry. A free entry is an absent one; what it reads back as is said where it is read (R34). -/
structure CetEntry where
  key        : Key
  count      : Nat
  firstSeen  : Time
  lastSeen   : Time
  lastRow    : Row
  lastColumn : Col
  worst      : CeClass
  origins    : OriginSet
  state      : CetState
  pinned     : Bool
  status     : VerifyStatus
  result     : Option (VerifyOutcome × Time)
  link       : Option RetIdx
deriving DecidableEq, Repr

/-- R15: the table-wide policy of the CET. -/
structure CetPolicy where
  granularity  : Granularity
  threshold    : Nat
  leakInterval : Nat
  autoVerify   : Bool
  proposeMode  : ProposeMode
deriving DecidableEq, Repr

/-- R13 to R17, R40: the correctable error table. -/
structure Cet where
  entries         : Table (Option CetEntry) 128
  generation      : BitVec 16
  policy          : CetPolicy
  leakTimer       : Timer
  lost            : Nat
  replaced        : Nat
  verifyQueueFull : Nat
deriving DecidableEq, Repr

/-- R42: whether software has confirmed the range. -/
inductive RetState where
  | proposed | confirmed
deriving DecidableEq, Repr

/-- R42: who created the entry. -/
inductive RetOrigin where
  | auto | host
deriving DecidableEq, Repr

/-- R42, R45: what made a proposal. -/
inductive Evidence where
  | cet (i : CetIdx)
  | ue (id : BitVec 8)
deriving DecidableEq, Repr

/-- R42: a valid retirement entry. -/
structure RetEntry where
  range      : Range
  state      : RetState
  origin     : RetOrigin
  evidence   : Option Evidence
  suppressed : Nat
  created    : Time
  confirmed  : Option Time
deriving DecidableEq, Repr

/-- R42, R44: the retirement list and its two counters. -/
structure RetireList where
  entries : Table (Option RetEntry) 32
  merged  : Nat
  refused : Nat
deriving DecidableEq, Repr

/-- R66: the class of a UE record. -/
inductive UeClass where
  | uncorrectable | poison
deriving DecidableEq, Repr

/-- R66: how far a record has gone without acknowledgement. -/
inductive AckState where
  | opened | handedOver | escalated
deriving DecidableEq, Repr

/-- R66: a record of the UEL. -/
structure UeRecord where
  id        : BitVec 8
  loc       : Loc
  cls       : UeClass
  origin    : Origin
  inRetired : Bool
  arrival   : Time
  ack       : AckState
  window    : Timer
deriving DecidableEq, Repr

/-- R72: the summary of the first uncorrectable error lost. -/
structure LostUe where
  loc    : Loc
  cls    : UeClass
  origin : Origin
  time   : Time
deriving DecidableEq, Repr

/-- R68: the policy of the UEL. -/
structure UelPolicy where
  systemWindow      : Nat
  serviceWindow     : Nat
  fatalOnEscalation : Bool
  fatalOnOverflow   : Bool
  proposeOnUe       : Bool
deriving DecidableEq, Repr

/-- R65 to R72: the uncorrectable error log; the record at position 0 is the oldest. -/
structure Uel where
  records   : List UeRecord
  nextId    : BitVec 8
  overflow  : Nat
  firstLost : Option LostUe
  policy    : UelPolicy
deriving DecidableEq, Repr

/-- R85: a report that waits in an intake queue. -/
inductive Report where
  | error (r : ErrorReport)
  | reply (r : ScrubReply)
deriving DecidableEq, Repr

/-- R87: the report that INJECT_REPORT places in the injection slot; its origin is INJECTED. -/
structure InjectedReport where
  loc : Loc
  cls : ErrClass
deriving DecidableEq, Repr

/-- R88: the mode of the intake arbiter. -/
inductive ArbiterMode where
  | rotating | fixed
deriving DecidableEq, Repr

/-- R88: the last-served source. -/
inductive Source where
  | channel (ch : Chan)
  | slot
deriving DecidableEq, Repr

/-- R87, R88: the injection slot and the intake arbiter. -/
structure Intake where
  slot       : Option InjectedReport
  mode       : ArbiterMode
  lastServed : Source
deriving DecidableEq, Repr

/-- R100: the classifier's two counters of a channel. -/
structure ClassifierCounters where
  malformed : Nat
  stale     : Nat
deriving DecidableEq, Repr

/-- R107: the state of a link. -/
inductive LinkState where
  | down | syncing | active | failed
deriving DecidableEq, Repr

/-- R124: the nine counters of a link receiver. -/
structure LinkCounters where
  accepted         : Nat
  checkFailures    : Nat
  lost             : Nat
  duplicates       : Nat
  creditViolations : Nat
  malformed        : Nat
  outOfState       : Nat
  restarts         : Nat
  discarded        : Nat
deriving DecidableEq, Repr

/-- R107: a link receiver. -/
structure Link where
  state         : LinkState
  expected      : BitVec 8
  outstanding   : Nat
  awaiting      : Nat
  attempts      : Nat
  attemptTimer  : Timer
  checkFailures : Nat
  geometry      : Geometry
  counters      : LinkCounters
deriving DecidableEq, Repr

/-- R131: what a scrub request is for. -/
inductive RequestKind where
  | patrol | verify
deriving DecidableEq, Repr

/-- R104: a downstream frame. -/
inductive DownFrame where
  | credit (count : Nat)
  | scrubRequest (tag : Tag) (number : BitVec 8) (kind : RequestKind) (rank : Rank) (bank : Bank) (row : Row)
  | syncRequest
deriving DecidableEq, Repr

/-- R104: a link transmitter: the frames that wait, in the order handed, and the frame being transmitted. -/
structure Transmitter where
  waiting : List DownFrame
  sending : Option DownFrame
deriving DecidableEq, Repr

/-- R131: the request that a BUSY tag holds, with the remaining time of its reply timer in milliseconds. -/
structure Request where
  number : BitVec 8
  kind   : RequestKind
  rank   : Rank
  bank   : Bank
  row    : Row
  timer  : Nat
deriving DecidableEq, Repr

/-- R128: the patrol states. -/
inductive PatrolState where
  | stopped | running | draining | held
deriving DecidableEq, Repr

/-- R127: the patrol mode. -/
inductive PatrolMode where
  | continuous | singlePass
deriving DecidableEq, Repr

/-- R127: the hold policy. -/
inductive HoldPolicy where
  | immediate | segment
deriving DecidableEq, Repr

/-- R127: the next row the patrol will visit. -/
structure Cursor where
  rank : Rank
  bank : Bank
  row  : Row
deriving DecidableEq, Repr

/-- R145: the three counters of a scrub context. -/
structure ScrubCounters where
  timeouts       : Nat
  skippedRetired : Nat
  skippedFailed  : Nat
deriving DecidableEq, Repr

/-- R127: a scrub context. A tag is IDLE when it holds no request. -/
structure Scrub where
  patrol       : PatrolState
  mode         : PatrolMode
  cursor       : Cursor
  stepDue      : Bool
  pacingTimer  : Timer
  pacing       : Nat
  holdFlag     : Bool
  holdPolicy   : HoldPolicy
  segment      : Nat
  ceiling      : Nat
  ceilingTimer : Timer
  replyTimeout : Nat
  tags         : Table (Option Request) 4
  nextNumber   : BitVec 8
  timeoutRun   : Nat
  passes       : BitVec 16
  counters     : ScrubCounters
deriving DecidableEq, Repr

/-- R148: the location a verify job reads at. -/
structure ReadLoc where
  rank : Rank
  bank : Bank
  row  : Row
deriving DecidableEq, Repr

/-- R148: a verify job. It is RUNNING when it stands at the head of the queue and QUEUED behind it (R151). -/
structure Job where
  cet      : CetIdx
  channel  : Chan
  location : Option ReadLoc
  reads    : Nat
  persist  : Nat
  issued   : Nat
  errored  : Nat
  clean    : Nat
  noAnswer : Nat
deriving DecidableEq, Repr

/-- R147: the verify read outstanding on a channel, and whether the head job owns it. -/
structure ReadRecord where
  tag    : Tag
  number : BitVec 8
  owned  : Bool
deriving DecidableEq, Repr

/-- R155: why a verify job is aborted. -/
inductive AbortReason where
  | cleared | retired | link
deriving DecidableEq, Repr

/-- R147: the verify queue; the job at the head of the list is the oldest. -/
structure VerifyQueue where
  jobs      : List Job
  records   : Table (Option ReadRecord) 8
  reads     : Nat
  persist   : Nat
  lastAbort : Option (AbortReason × CetIdx)
deriving DecidableEq, Repr

/-- R160: the state of a mailbox. -/
inductive MailState where
  | empty | pending | running | done
deriving DecidableEq, Repr

/-- R167: the result codes; NONE is not a result. -/
inductive ResultCode where
  | none | ok | busy | badCommand | badParam | notFound | full | limit | overlap | stateConflict | notPermitted
deriving DecidableEq, Repr

/-- R160: three result pages of six words. -/
abbrev Pages := Table (Table Word 6) 3

/-- R160: a port's mailbox. -/
structure Mailbox where
  state     : MailState
  command   : Word
  params    : Table Word 6
  latched   : Table Word 6
  result    : Pages
  code      : ResultCode
  page      : Fin 4
  collision : Bool
deriving DecidableEq, Repr

/-- R52: the retirement authority. -/
inductive Authority where
  | systemOnly | serviceOnly | both
deriving DecidableEq, Repr

/-- R59: the purge in progress. -/
structure Purge where
  serves : RetIdx
  next   : Nat
  purged : Nat
deriving DecidableEq, Repr

/-- R52, R59, R164, R173: the command engine and its arbiter. The engine is idle when no mailbox is RUNNING (R164). -/
structure Engine where
  lastServed   : Port
  serviceFirst : Bool
  authority    : Authority
  purge        : Option Purge
deriving DecidableEq, Repr

/-- R178, R181, R183: the event unit. Bit n of the flags and of the masks is the flag of row n of R178 (R185). -/
structure EventUnit where
  flags           : BitVec 17
  irqMask         : BitVec 17
  alertMask       : BitVec 17
  fatalLatch      : Bool
  escalationCause : Bool
  overflowCause   : Bool
deriving DecidableEq, Repr

/-- R11, R12: the event clock and the pacing ticks counted since its last advance. -/
structure Clock where
  time  : Time
  ticks : Nat
deriving DecidableEq, Repr

/-- R186, R187: the value last driven onto each port by a read (D31 to D0, and SDO's four data bytes). -/
structure PortData where
  system  : Word
  service : Word
deriving DecidableEq, Repr

/-- The state of the part, and the commands that wait outside it. -/
structure State where
  /-- R184: RST_N is asserted. -/
  rst        : Bool
  clock      : Clock
  cet        : Cet
  retire     : RetireList
  uel        : Uel
  /-- R85: one intake queue per channel, oldest report at the head. -/
  queues     : Table (List Report) 8
  intake     : Intake
  classifier : Table ClassifierCounters 8
  links      : Table Link 8
  txs        : Table Transmitter 8
  /-- R107: the credit return batch, one setting for all eight links. -/
  batch      : Nat
  scrubs     : Table Scrub 8
  verify     : VerifyQueue
  engine     : Engine
  sysMail    : Mailbox
  svcMail    : Mailbox
  events     : EventUnit
  portData   : PortData
  /-- The commands that wait, first in, first out: the model's own queue. -/
  pending    : List Instr
deriving DecidableEq, Repr

/-- The manual gives every event of the part an outcome and none stops it, so no meaning faults and there is no fault. -/
inductive Fault where
deriving DecidableEq, Repr

/-- Why a step has no meaning. -/
inductive Refusal where
  /-- Raised by `exec`'s arm of a row that has no meaning yet; no row is without one. Safe: nothing is claimed of the row. -/
  | notModelled (mnemonic : String)
  /-- Raised by the meanings of REGISTER_WRITE_IGNORED and UNKNOWN_KIND_FRAME on a term that `Instr.wellFormed` refuses: a
  write to an index that has a write behaviour, or a frame whose kind is known. The part meets those as other rows of the
  table (R185, R189). Safe: no behaviour of the part is left out. -/
  | illFormed
deriving DecidableEq, Repr

/-- R3: the default geometry. -/
def Geometry.default : Geometry := ⟨4, 32, 262144⟩

/-- R13, R15, R41: the CET at Full reset. The leak timer starts when the reset ends. -/
def Cet.held : Cet where
  entries         := Table.fill 128 none
  generation      := 0
  policy          := ⟨.row, Config.defaultThreshold, Config.defaultLeakInterval, false, .off⟩
  leakTimer       := none
  lost            := 0
  replaced        := 0
  verifyQueueFull := 0

/-- R64: the retirement list at Full reset. -/
def RetireList.held : RetireList := ⟨Table.fill 32 none, 0, 0⟩

/-- R68, R83: the UEL at Full reset. -/
def Uel.held : Uel where
  records   := []
  nextId    := 0
  overflow  := 0
  firstLost := none
  policy    := ⟨Config.defaultSystemWindow, Config.defaultServiceWindow, true, false, false⟩

/-- R107, R126: a link at Full reset. -/
def Link.held : Link where
  state         := .down
  expected      := 0
  outstanding   := 0
  awaiting      := 0
  attempts      := 0
  attemptTimer  := none
  checkFailures := 0
  geometry      := Geometry.default
  counters      := ⟨0, 0, 0, 0, 0, 0, 0, 0, 0⟩

/-- R127, R146: a scrub context at Full reset. -/
def Scrub.held : Scrub where
  patrol       := .stopped
  mode         := .continuous
  cursor       := ⟨0, 0, 0⟩
  stepDue      := false
  pacingTimer  := none
  pacing       := Config.defaultPacing
  holdFlag     := false
  holdPolicy   := .immediate
  segment      := Config.defaultSegment
  ceiling      := 0
  ceilingTimer := none
  replyTimeout := Config.defaultReplyTimeout
  tags         := Table.fill 4 none
  nextNumber   := 0
  timeoutRun   := 0
  passes       := 0
  counters     := ⟨0, 0, 0⟩

/-- R147, R159: the verify queue at Full reset. -/
def VerifyQueue.held : VerifyQueue where
  jobs      := []
  records   := Table.fill 8 none
  reads     := Config.defaultReads
  persist   := Config.defaultPersist
  lastAbort := none

/-- R160: a mailbox at Full reset. -/
def Mailbox.held : Mailbox where
  state     := .empty
  command   := 0
  params    := Table.fill 6 0
  latched   := Table.fill 6 0
  result    := Table.fill 3 (Table.fill 6 0)
  code      := .none
  page      := 0
  collision := false

/-- R184: the state that every block holds while RST_N is asserted. The pacing ticks start from 0 with the event clock (R12).
DESIGN CHOICE (log entry 3): the port data hold 0, for which the manual gives no value. -/
def State.held : State where
  rst        := true
  clock      := ⟨0, 0⟩
  cet        := Cet.held
  retire     := RetireList.held
  uel        := Uel.held
  queues     := Table.fill 8 []
  intake     := ⟨none, .rotating, .slot⟩
  classifier := Table.fill 8 ⟨0, 0⟩
  links      := Table.fill 8 Link.held
  txs        := Table.fill 8 ⟨[], none⟩
  batch      := Config.defaultBatch
  scrubs     := Table.fill 8 Scrub.held
  verify     := VerifyQueue.held
  engine     := ⟨.service, false, .both, none⟩
  sysMail    := Mailbox.held
  svcMail    := Mailbox.held
  events     := ⟨0, 0, 0, false, false, false⟩
  portData   := ⟨0, 0⟩
  pending    := []

/-- The part right after Full reset: RST_N is released, and the leak timer has started with 60000 ms (R17, R184). -/
def State.reset : State :=
  { State.held with
    rst := false
    cet := { Cet.held with leakTimer := some (Config.defaultLeakInterval * Config.msPerSecond) } }

end Sys2Proof.Machine
end

