-- ==== Sys2Proof/Machine/Ops.lean ====
section
/-! DEFINITION. The named updates of the state, one per block, and the counter and timer conventions that every block shares
(R10, R12). The meanings change the state through these updates alone. -/

namespace Sys2Proof.Machine

/-- R10: a saturating counter increased by `k`: the sum or 65535, whichever is smaller. -/
def satAdd (n k : Nat) : Nat := min (n + k) Config.counterMax

/-- R10: a saturating counter increased by one. -/
def satInc (n : Nat) : Nat := satAdd n 1

/-- R12: a timer started with a setting for which 0 means that no timer starts. -/
def Timer.ofSetting (n : Nat) : Timer := if n = 0 then none else some n

/-- R12: an advance of the unit base lowers the remaining time by one; a timer whose time has run out waits to be taken. -/
def Timer.lower (t : Timer) : Timer := t.map (· - 1)

/-- R12: the timer's time has run out, and its expiry is there to be taken. -/
def Timer.expired (t : Timer) : Bool := t == some 0

def State.setRst (s : State) (x : Bool) : State := { s with rst := x }
def State.setClock (s : State) (x : Clock) : State := { s with clock := x }
def State.setCet (s : State) (x : Cet) : State := { s with cet := x }
def State.setRetire (s : State) (x : RetireList) : State := { s with retire := x }
def State.setUel (s : State) (x : Uel) : State := { s with uel := x }
def State.setQueues (s : State) (x : Table (List Report) 8) : State := { s with queues := x }
def State.setIntake (s : State) (x : Intake) : State := { s with intake := x }
def State.setClassifier (s : State) (x : Table ClassifierCounters 8) : State := { s with classifier := x }
def State.setLinks (s : State) (x : Table Link 8) : State := { s with links := x }
def State.setTxs (s : State) (x : Table Transmitter 8) : State := { s with txs := x }
def State.setBatch (s : State) (x : Nat) : State := { s with batch := x }
def State.setScrubs (s : State) (x : Table Scrub 8) : State := { s with scrubs := x }
def State.setVerify (s : State) (x : VerifyQueue) : State := { s with verify := x }
def State.setEngine (s : State) (x : Engine) : State := { s with engine := x }
def State.setSysMail (s : State) (x : Mailbox) : State := { s with sysMail := x }
def State.setSvcMail (s : State) (x : Mailbox) : State := { s with svcMail := x }
def State.setEvents (s : State) (x : EventUnit) : State := { s with events := x }
def State.setPortData (s : State) (x : PortData) : State := { s with portData := x }
def State.setPending (s : State) (x : List Instr) : State := { s with pending := x }

/-- The link receiver of a channel. -/
def State.link (s : State) (ch : Chan) : Link := s.links.get ch

/-- The link receiver of one channel changed. -/
def State.modLink (s : State) (ch : Chan) (f : Link → Link) : State := s.setLinks (s.links.modify ch f)

/-- The transmitter of one channel changed. -/
def State.modTx (s : State) (ch : Chan) (f : Transmitter → Transmitter) : State := s.setTxs (s.txs.modify ch f)

/-- The scrub context of a channel. -/
def State.scrub (s : State) (ch : Chan) : Scrub := s.scrubs.get ch

/-- The scrub context of one channel changed. -/
def State.modScrub (s : State) (ch : Chan) (f : Scrub → Scrub) : State := s.setScrubs (s.scrubs.modify ch f)

/-- The classifier's counters of one channel changed (R100). -/
def State.modClassifier (s : State) (ch : Chan) (f : ClassifierCounters → ClassifierCounters) : State :=
  s.setClassifier (s.classifier.modify ch f)

/-- The mailbox of a port (R160). -/
def State.mail (s : State) (p : Port) : Mailbox :=
  match p with
  | .system => s.sysMail
  | .service => s.svcMail

/-- The mailbox of one port replaced. -/
def State.setMail (s : State) (p : Port) (m : Mailbox) : State :=
  match p with
  | .system => s.setSysMail m
  | .service => s.setSvcMail m

/-- The link of a channel is ACTIVE. -/
def State.linkActive (s : State) (ch : Chan) : Bool := (s.link ch).state == .active

/-- The geometry of a channel (R3), held with its link (R107). -/
def State.geometry (s : State) (ch : Chan) : Geometry := (s.link ch).geometry

/-- R11: the value of the event clock that a block stamps when it takes its event. -/
def State.now (s : State) : Time := s.clock.time

/-- The CET entry at an index, when it is valid. -/
def State.entry (s : State) (i : CetIdx) : Option CetEntry := s.cet.entries.get i

/-- The CET entry at an index replaced, or made free. -/
def State.setEntry (s : State) (i : CetIdx) (e : Option CetEntry) : State :=
  s.setCet { s.cet with entries := s.cet.entries.set i e }

/-- A valid CET entry changed in place; a free entry stays free. -/
def State.modEntry (s : State) (i : CetIdx) (f : CetEntry → CetEntry) : State :=
  s.setEntry i ((s.entry i).map f)

/-- R14: the generation count advances by one, wrapping. -/
def State.bumpGeneration (s : State) : State := s.setCet { s.cet with generation := s.cet.generation + 1 }

/-- R31: the verify status of a valid CET entry. -/
def State.setStatus (s : State) (i : CetIdx) (v : VerifyStatus) : State := s.modEntry i (fun e => { e with status := v })

/-- R14: the number of valid CET entries. -/
def Cet.occupancy (c : Cet) : Nat := c.entries.count Option.isSome

/-- R14: the number of valid CET entries with pinned yes. -/
def Cet.pinnedCount (c : Cet) : Nat := c.entries.count (fun e => (e.map CetEntry.pinned).getD false)

/-- R43: the number of valid retirement entries in a state. -/
def RetireList.countIn (l : RetireList) (st : RetState) : Nat :=
  l.entries.count (fun e => e.map RetEntry.state == some st)

/-- R73: the number of records held in an acknowledge state. -/
def Uel.countIn (u : Uel) (a : AckState) : Nat := u.records.countP (fun r => r.ack == a)

end Sys2Proof.Machine
end

