-- ==== Sys2Proof/Machine/Flags.lean ====
section
/-! DEFINITION. The event unit: the seventeen event flags, their setting and clearing, the two masks, the FATAL latch and the
three output lines (R178 to R183). -/

namespace Sys2Proof.Machine

/-- R178: the event flags in the order of the rule's table. -/
inductive EventFlag where
  | ceThreshold | cetOverflow | ueLogged | ueHandover | ueEscalated | uelOverflow | retireProposed | retireListFull
  | linkChange | reportsLost | creditViolation | scrubPassDone | holdOverrun | verifyDone | verifyAborted
  | sysCmdDone | svcCmdDone
deriving DecidableEq, Repr

/-- R185: the position of a flag, counting CE_THRESHOLD as 0 and SVC_CMD_DONE as 16. -/
def EventFlag.pos : EventFlag → Fin 17
  | .ceThreshold => 0
  | .cetOverflow => 1
  | .ueLogged => 2
  | .ueHandover => 3
  | .ueEscalated => 4
  | .uelOverflow => 5
  | .retireProposed => 6
  | .retireListFull => 7
  | .linkChange => 8
  | .reportsLost => 9
  | .creditViolation => 10
  | .scrubPassDone => 11
  | .holdOverrun => 12
  | .verifyDone => 13
  | .verifyAborted => 14
  | .sysCmdDone => 15
  | .svcCmdDone => 16

/-- The set that holds one flag alone. -/
def EventFlag.mask (f : EventFlag) : BitVec 17 := BitVec.twoPow 17 f.pos.val

/-- The flag is set. -/
def State.flagged (s : State) (f : EventFlag) : Bool := s.events.flags.getLsbD f.pos.val

/-- R179: a block sets a flag; setting a flag never clears another. -/
def State.setFlag (s : State) (f : EventFlag) : State :=
  s.setEvents { s.events with flags := s.events.flags ||| f.mask }

/-- R180: every flag named becomes clear; positions that name no flag are ignored. -/
def State.clearFlags (s : State) (named : Word) : State :=
  s.setEvents { s.events with flags := s.events.flags &&& ~~~(named.setWidth 17) }

/-- R181: the mask of a port. -/
def State.lineMask (s : State) (p : Port) : BitVec 17 :=
  match p with
  | .system => s.events.irqMask
  | .service => s.events.alertMask

/-- R181: a write by a port replaces its own mask. -/
def State.setLineMask (s : State) (p : Port) (v : Word) : State :=
  match p with
  | .system => s.setEvents { s.events with irqMask := v.setWidth 17 }
  | .service => s.setEvents { s.events with alertMask := v.setWidth 17 }

/-- R183: what sets the FATAL latch. -/
inductive FatalCause where
  | escalation | overflow
deriving DecidableEq, Repr

/-- R183: the latch is set, and the indication of its cause with it. -/
def State.setFatal (s : State) (c : FatalCause) : State :=
  match c with
  | .escalation => s.setEvents { s.events with fatalLatch := true, escalationCause := true }
  | .overflow => s.setEvents { s.events with fatalLatch := true, overflowCause := true }

/-- R174, R183: the latch and both cause indications become clear. -/
def State.clearLatch (s : State) : State :=
  s.setEvents { s.events with fatalLatch := false, escalationCause := false, overflowCause := false }

/-- R182: IRQ_N is asserted (driven low). -/
def State.irqAsserted (s : State) : Bool := !s.rst && (s.events.flags &&& s.events.irqMask) != 0

/-- R182: ALERT_N is asserted (driven low). -/
def State.alertAsserted (s : State) : Bool := !s.rst && (s.events.flags &&& s.events.alertMask) != 0

/-- R183: FATAL_N is asserted (driven low). -/
def State.fatalAsserted (s : State) : Bool := !s.rst && s.events.fatalLatch

end Sys2Proof.Machine
end

