-- ==== Sys2Proof/Machine/Transmitter.lean ====
section
/-! DEFINITION. The link transmitters: handing a frame, adding to a waiting CREDIT, withdrawing waiting frames and
transmitting (R104). -/

namespace Sys2Proof.Machine

/-- The frame is a CREDIT. -/
def DownFrame.isCredit : DownFrame → Bool
  | .credit _ => true
  | .scrubRequest _ _ _ _ _ _ => false
  | .syncRequest => false

/-- The frame is the SCRUB_REQUEST of a tag. -/
def DownFrame.isRequestOf (t : Tag) : DownFrame → Bool
  | .credit _ => false
  | .scrubRequest u _ _ _ _ _ => u == t
  | .syncRequest => false

/-- The frame is a SYNC_REQUEST. -/
def DownFrame.isSync : DownFrame → Bool
  | .credit _ => false
  | .scrubRequest _ _ _ _ _ _ => false
  | .syncRequest => true

/-- R104: a count added to a CREDIT frame. -/
def DownFrame.addCredit (n : Nat) : DownFrame → DownFrame
  | .credit m => .credit (m + n)
  | f => f

/-- R104: credits are sent: added to a CREDIT that waits, which keeps its place, or handed as a new frame. -/
def Transmitter.sendCredit (t : Transmitter) (n : Nat) : Transmitter :=
  if t.waiting.any DownFrame.isCredit then { t with waiting := t.waiting.map (DownFrame.addCredit n) }
  else { t with waiting := t.waiting ++ [.credit n] }

/-- R104: a SYNC_REQUEST is sent, in place of one that still waits. DEDUCED (log entry 8) for the repeats of R111: at most one
SYNC_REQUEST waits. -/
def Transmitter.sendSync (t : Transmitter) : Transmitter :=
  { t with waiting := t.waiting.filter (fun f => !f.isSync) ++ [.syncRequest] }

/-- R131 step 4: a SCRUB_REQUEST is sent. DESIGN CHOICE (log entry 9): at most one request waits for each tag (R104), so an older
one of the same tag that still waits is replaced. -/
def Transmitter.sendRequest (t : Transmitter) (tag : Tag) (number : BitVec 8) (kind : RequestKind) (rank : Rank) (bank : Bank)
    (row : Row) : Transmitter :=
  { t with waiting := t.waiting.filter (fun f => !f.isRequestOf tag) ++ [.scrubRequest tag number kind rank bank row] }

/-- R104: the departure from ACTIVE to SYNCING or FAILED, or a far-end SYNC in ACTIVE: CREDIT and SCRUB_REQUEST frames that wait
are withdrawn, and the frame being transmitted is completed. -/
def Transmitter.withdraw (t : Transmitter) : Transmitter := { t with waiting := t.waiting.filter DownFrame.isSync }

/-- R104: the expiry of a tag's reply timer withdraws that tag's waiting SCRUB_REQUEST. -/
def Transmitter.withdrawRequest (t : Transmitter) (tag : Tag) : Transmitter :=
  { t with waiting := t.waiting.filter (fun f => !f.isRequestOf tag) }

/-- R104: entry to DOWN withdraws every waiting frame and cuts off the one being transmitted. -/
def Transmitter.cut : Transmitter := ⟨[], none⟩

/-- R104: the transmitter begins its next waiting frame; it transmits them one after another, each whole. -/
def Transmitter.begin (t : Transmitter) : Transmitter :=
  match t.sending, t.waiting with
  | none, f :: rest => ⟨rest, some f⟩
  | _, _ => t

/-- R104: the transmitter finishes the frame it is transmitting. -/
def Transmitter.finish (t : Transmitter) : Transmitter := { t with sending := none }

/-- R118: `n` credits are granted on a channel in one CREDIT frame, and no frame is sent for 0 credits. -/
def State.sendCredit (s : State) (ch : Chan) (n : Nat) : State :=
  if n = 0 then s else s.modTx ch (fun t => t.sendCredit n)

end Sys2Proof.Machine
end

