-- ==== Sys2Proof/Machine/Places.lean ====
section
/-! DEFINITION. Locations, keys and ranges: the within-geometry test, the reduction of a location to a key, and the inside and
overlap tests of ranges (R2 to R9). -/

namespace Sys2Proof.Machine

/-- R3: the allowed values of a geometry. -/
def Geometry.allowed (g : Geometry) : Bool :=
  decide (1 ≤ g.ranks ∧ g.ranks ≤ 4) && (g.banks == 4 || g.banks == 8 || g.banks == 16 || g.banks == 32) &&
    decide (1 ≤ g.rows ∧ g.rows ≤ 262144)

/-- R4: rank, bank and row are each below the geometry's limit. -/
def Geometry.admits (g : Geometry) (rank : Rank) (bank : Bank) (row : Row) : Bool :=
  decide (rank.val < g.ranks) && decide (bank.val < g.banks) && decide (row.val < g.rows)

/-- R4: the location is within geometry; the column takes no part. -/
def Loc.within (l : Loc) (g : Geometry) : Bool := g.admits l.rank l.bank l.row

/-- R4: the key is within geometry when every field it has passes. -/
def Key.within (k : Key) (g : Geometry) : Bool :=
  decide (k.rank.val < g.ranks) && decide (k.bank.val < g.banks) && (k.row.map (fun r => decide (r.val < g.rows))).getD true

/-- R6: the key that a location reduces to. -/
def Granularity.reduce (g : Granularity) (l : Loc) : Key :=
  match g with
  | .cell => ⟨l.channel, l.rank, l.bank, some l.row, some l.column⟩
  | .row => ⟨l.channel, l.rank, l.bank, some l.row, none⟩
  | .bank => ⟨l.channel, l.rank, l.bank, none, none⟩

/-- R7: the range is well formed under a geometry. -/
def Range.wellFormed (r : Range) (g : Geometry) : Bool :=
  g.admits r.rank r.bank r.first && g.admits r.rank r.bank r.last && decide (r.first.val ≤ r.last.val)

/-- R7: the range covers every row of its bank. -/
def Range.isBank (r : Range) (g : Geometry) : Bool :=
  decide (r.first.val = 0) && decide (r.last.val + 1 = g.rows)

/-- R8: a row of a bank lies inside the range; the column takes no part. -/
def Range.covers (r : Range) (ch : Chan) (rank : Rank) (bank : Bank) (row : Row) : Bool :=
  decide (r.channel = ch ∧ r.rank = rank ∧ r.bank = bank) && decide (r.first.val ≤ row.val ∧ row.val ≤ r.last.val)

/-- R8: a location lies inside the range. -/
def Loc.inside (l : Loc) (r : Range) : Bool := r.covers l.channel l.rank l.bank l.row

/-- R8: a key lies inside the range: by its row where it has one, and otherwise when the range is a bank range. -/
def Key.inside (k : Key) (r : Range) (g : Geometry) : Bool :=
  match k.row with
  | some row => r.covers k.channel k.rank k.bank row
  | none => decide (r.channel = k.channel ∧ r.rank = k.rank ∧ r.bank = k.bank) && r.isBank g

/-- R9: two ranges share a row of one bank. -/
def Range.overlaps (a b : Range) : Bool :=
  decide (a.channel = b.channel ∧ a.rank = b.rank ∧ a.bank = b.bank) &&
    decide (a.first.val ≤ b.last.val ∧ b.first.val ≤ a.last.val)

/-- The row of a number that is known to be below 262144. -/
def rowOfNat (n : Nat) : Row := Fin.ofNat 262144 n

/-- The bank of a number that is known to be below 32. -/
def bankOfNat (n : Nat) : Bank := Fin.ofNat 32 n

/-- The rank of a number that is known to be below 4. -/
def rankOfNat (n : Nat) : Rank := Fin.ofNat 4 n

/-- R46: the range that a proposal from a CET key covers. -/
def Key.range (k : Key) (g : Geometry) : Range :=
  match k.row with
  | some row => ⟨k.channel, k.rank, k.bank, row, row⟩
  | none => ⟨k.channel, k.rank, k.bank, rowOfNat 0, rowOfNat (g.rows - 1)⟩

/-- R46: the one-row range that a proposal from a UE record covers. -/
def Loc.rowRange (l : Loc) : Range := ⟨l.channel, l.rank, l.bank, l.row, l.row⟩

/-- R9: a valid CET entry is compatible with a new geometry of its channel. -/
def CetEntry.compatible (e : CetEntry) (g : Geometry) : Bool := e.key.within g && decide (e.lastRow.val < g.rows)

/-- R9: a retirement range is compatible with a new geometry: it stays well formed, and a bank range exactly when it was one. -/
def Range.compatible (r : Range) (old new : Geometry) : Bool := r.wellFormed new && (r.isBank new == r.isBank old)

end Sys2Proof.Machine
end

