-- ==== Sys2Proof/Machine/Retirement.lean ====
section
/-! DEFINITION. The retirement list as the other blocks reach it: lookups, suppression, proposals and the loss of evidence
(R42 to R51). The retirement commands stand in Machine/RetireCommands.lean. -/

namespace Sys2Proof.Machine

/-- R50: a valid CONFIRMED entry whose range covers the row. -/
def RetEntry.answers (e : RetEntry) (ch : Chan) (rank : Rank) (bank : Bank) (row : Row) : Bool :=
  e.state == .confirmed && e.range.covers ch rank bank row

/-- R50: the index of the CONFIRMED range that contains a row, or none. -/
def State.lookup (s : State) (ch : Chan) (rank : Rank) (bank : Bank) (row : Row) : Option RetIdx :=
  s.retire.entries.find (fun e => (e.map (fun e => e.answers ch rank bank row)).getD false)

/-- R50: the lookup of a location. -/
def State.lookupLoc (s : State) (l : Loc) : Option RetIdx := s.lookup l.channel l.rank l.bank l.row

/-- R45, R58: the lowest-index valid entry, in either state, that contains a location. -/
def State.containing (s : State) (l : Loc) : Option RetIdx :=
  s.retire.entries.find (fun e => (e.map (fun e => l.inside e.range)).getD false)

/-- R47, R53: the lowest-index valid entry, in either state, that overlaps a range. -/
def State.overlapping (s : State) (r : Range) : Option RetIdx :=
  s.retire.entries.find (fun e => (e.map (fun e => r.overlaps e.range)).getD false)

/-- R43: the lowest-index free entry. -/
def State.freeRetire (s : State) : Option RetIdx := s.retire.entries.find Option.isNone

/-- The retirement entry at an index replaced, or made free. -/
def State.setRetEntry (s : State) (i : RetIdx) (e : Option RetEntry) : State :=
  s.setRetire { s.retire with entries := s.retire.entries.set i e }

/-- R51: the suppressed count of a range is increased by one. -/
def State.suppress (s : State) (i : RetIdx) : State :=
  s.setRetEntry i ((s.retire.entries.get i).map (fun e => { e with suppressed := satInc e.suppressed }))

/-- R28, R49: an entry whose evidence is a CET index that is freed loses that evidence. -/
def RetEntry.dropEvidence (e : RetEntry) (i : CetIdx) : RetEntry :=
  if e.evidence = some (.cet i) then { e with evidence := none } else e

/-- R28, R49: every valid retirement entry whose evidence is the freed CET index loses it. -/
def State.dropEvidence (s : State) (i : CetIdx) : State :=
  s.setRetire { s.retire with entries := s.retire.entries.map (fun e => e.map (fun e => e.dropEvidence i)) }

/-- R47: the list's answer to a proposal. -/
inductive ProposalAnswer where
  | created (i : RetIdx)
  | merged (i : RetIdx)
  | full
deriving DecidableEq, Repr

/-- R47: the entry that a proposal creates. -/
def proposedEntry (r : Range) (ev : Evidence) (now : Time) : RetEntry where
  range      := r
  state      := .proposed
  origin     := .auto
  evidence   := some ev
  suppressed := 0
  created    := now
  confirmed  := none

/-- R47: the list takes a proposal, changes the state by its answer and gives the answer. -/
def State.propose (s : State) (r : Range) (ev : Evidence) : State × ProposalAnswer :=
  match s.overlapping r with
  | some i => (s.setRetire { s.retire with merged := satInc s.retire.merged }, .merged i)
  | none =>
    match s.freeRetire with
    | some i => ((s.setRetEntry i (some (proposedEntry r ev s.now))).setFlag .retireProposed, .created i)
    | none => ((s.setRetire { s.retire with refused := satInc s.retire.refused }).setFlag .retireListFull, .full)

/-- R32: every valid CET entry whose proposal link names a removed retirement entry has its link set to absent. -/
def CetEntry.unlink (e : CetEntry) (i : RetIdx) : CetEntry :=
  if e.link = some i then { e with link := none } else e

/-- R32: the links that name a removed retirement entry are set to absent. -/
def State.unlinkAll (s : State) (i : RetIdx) : State :=
  s.setCet { s.cet with entries := s.cet.entries.map (fun e => e.map (fun e => e.unlink i)) }

end Sys2Proof.Machine
end

