-- ==== Sys2Proof/Machine/VerifyQueue.lean ====
section
/-! DEFINITION. The verify queue: the creation of a job, the head job and aborts (R147 to R151, R155, R156). The ends of reads
and outcomes stand in Machine/VerifyReads.lean. -/

namespace Sys2Proof.Machine

/-- R148: a new job, with its entry's channel and the settings in force. -/
def newJob (i : CetIdx) (ch : Chan) (v : VerifyQueue) : Job where
  cet      := i
  channel  := ch
  location := none
  reads    := v.reads
  persist  := v.persist
  issued   := 0
  errored  := 0
  clean    := 0
  noAnswer := 0

/-- R148: the location that a job takes from its entry: the rank and bank of the key and the row of the last location. -/
def CetEntry.readLoc (e : CetEntry) : ReadLoc := ⟨e.key.rank, e.key.bank, e.lastRow⟩

/-- The job list replaced. -/
def State.setJobs (s : State) (jobs : List Job) : State := s.setVerify { s.verify with jobs := jobs }

/-- The read record of a channel replaced (R147). -/
def State.setRecord (s : State) (ch : Chan) (r : Option ReadRecord) : State :=
  s.setVerify { s.verify with records := s.verify.records.set ch r }

/-- R156 steps 4 and 5: the last-abort summary takes the reason and the index, and VERIFY_ABORTED is set. -/
def State.noteAbort (s : State) (reason : AbortReason) (i : CetIdx) : State :=
  (s.setVerify { s.verify with lastAbort := some (reason, i) }).setFlag .verifyAborted

/-- R151: the first of the jobs given becomes the head. While the link of that job's channel is not ACTIVE, the job is aborted
with reason LINK and the next one becomes the head, in the same event. -/
def makeHead (jobs : List Job) (s : State) : State :=
  match jobs with
  | [] => s.setJobs []
  | j :: rest =>
    if s.linkActive j.channel then
      (s.setStatus j.cet .running).setJobs ({ j with location := (s.entry j.cet).map CetEntry.readLoc } :: rest)
    else
      makeHead rest ((s.setStatus j.cet .idle).noteAbort .link j.cet)

/-- R150: a job is created for a valid entry and joins the tail of the queue; in an empty queue it becomes the head. -/
def State.createJob (s : State) (i : CetIdx) (ch : Chan) : State :=
  let job := newJob i ch s.verify
  if s.verify.jobs.isEmpty then
    makeHead [job] (s.setStatus i .queued)
  else
    (s.setStatus i .queued).setJobs (s.verify.jobs ++ [job])

/-- R156 step 3: the head job is no longer the owner of its channel's read record; the record stays. -/
def State.orphanRecord (s : State) (ch : Chan) : State :=
  s.setRecord ch ((s.verify.records.get ch).map (fun r => { r with owned := false }))

/-- R156: the job of a CET entry is aborted. The entry, when it is still valid, returns to IDLE; when the job was the head, the
next job becomes the head. -/
def State.abortJob (s : State) (reason : AbortReason) (i : CetIdx) : State :=
  match s.verify.jobs with
  | [] => s
  | j :: rest =>
    if j.cet = i then
      makeHead rest ((((s.setJobs rest).setStatus i .idle).orphanRecord j.channel).noteAbort reason i)
    else if rest.any (fun k => k.cet == i) then
      ((s.setJobs (j :: rest.filter (fun k => k.cet != i))).setStatus i .idle).noteAbort reason i
    else s

/-- R113, R155: the RUNNING job is aborted with reason LINK when it is a job of the channel given. -/
def State.abortRunningOn (s : State) (ch : Chan) : State :=
  match s.verify.jobs with
  | [] => s
  | j :: _ => if j.channel = ch then s.abortJob .link j.cet else s

/-- R159, R41: Soft reset empties the queue without aborts, every read record becomes absent, and the verify status of every
valid CET entry becomes IDLE. -/
def State.emptyVerify (s : State) : State :=
  (s.setVerify { s.verify with jobs := [], records := s.verify.records.map (fun _ => none) }).setCet
    { s.cet with entries := s.cet.entries.map (fun e => e.map (fun e => { e with status := .idle })) }

end Sys2Proof.Machine
end

