-- ==== Sys2Proof/Machine/CetTable.lean ====
section
/-! DEFINITION. The correctable error table: the free of an entry, hits, promotion, allocation, replacement, the drop of a
record, the proposal and auto-verify attempts, and the leak (R18 to R32). -/

namespace Sys2Proof.Machine

/-- R18: what the classifier passes to the CET for a corrected error. -/
structure CeRecord where
  loc     : Loc
  cls     : CeClass
  origin  : Origin
  arrival : Time
deriving DecidableEq, Repr

/-- R13: an origin added to the set. A CE record never carries VERIFY (R18). -/
def OriginSet.add (o : OriginSet) (x : Origin) : OriginSet :=
  match x with
  | .demand => { o with demand := true }
  | .controller => { o with controller := true }
  | .patrol => { o with patrol := true }
  | .injected => { o with injected := true }
  | .verify => o

/-- R13: the empty set of origins. -/
def OriginSet.empty : OriginSet := ⟨false, false, false, false⟩

/-- R28: the free of a valid entry. The cause gives the reason of the abort of its verify job; leak and replacement give none,
since they free no entry that has a job. A free entry is left as it is. -/
def State.freeEntry (s : State) (i : CetIdx) (reason : Option AbortReason) : State :=
  match s.entry i with
  | none => s
  | some e =>
    let freed := (s.setEntry i none).bumpGeneration
    let told :=
      match reason with
      | some r => if e.status = VerifyStatus.idle then freed else freed.abortJob r i
      | none => freed
    told.dropEvidence i

/-- R22: the proposal attempt of a valid entry, and the effect of the list's answer on its proposal link. -/
def State.proposalAttempt (s : State) (i : CetIdx) : State :=
  match s.entry i with
  | none => s
  | some e =>
    match s.propose (e.key.range (s.geometry e.key.channel)) (.cet i) with
    | (t, .created j) => t.modEntry i (fun e => { e with link := some j })
    | (t, .merged j) => t.modEntry i (fun e => { e with link := some j })
    | (t, .full) => t

/-- The entry is valid and its proposal link is absent. -/
def State.unlinked (s : State) (i : CetIdx) : Bool := (s.entry i).any (fun e => e.link.isNone)

/-- R21: the auto-verify attempt, made only when the entry's verify status is IDLE. -/
def State.autoVerifyAttempt (s : State) (i : CetIdx) : State :=
  match s.entry i with
  | none => s
  | some e =>
    if e.status = .idle then
      if s.verify.jobs.length < Config.verifySize then s.createJob i e.key.channel
      else s.setCet { s.cet with verifyQueueFull := satInc s.cet.verifyQueueFull }
    else s

/-- R20 step 2, R23: the proposal attempt under ON_THRESHOLD, made only when the proposal link is absent. -/
def State.thresholdProposal (s : State) (i : CetIdx) : State :=
  if s.cet.policy.proposeMode = .onThreshold && s.unlinked i then s.proposalAttempt i else s

/-- R20: the promotion of an entry and its follow-on attempts, in order. -/
def State.promote (s : State) (i : CetIdx) : State :=
  let raised := (s.modEntry i (fun e => { e with state := .overThreshold })).setFlag .ceThreshold
  let verified := if s.cet.policy.autoVerify then raised.autoVerifyAttempt i else raised
  verified.thresholdProposal i

/-- R20: the promotion test of a TRACKING entry. -/
def State.promotionTest (s : State) (i : CetIdx) : State :=
  match s.entry i with
  | none => s
  | some e => if e.state = .tracking ∧ s.cet.policy.threshold ≤ e.count then s.promote i else s

/-- R19: the update of an entry by a record that hits it. -/
def CetEntry.hit (e : CetEntry) (r : CeRecord) : CetEntry :=
  { e with
    count      := satInc e.count
    lastSeen   := r.arrival
    lastRow    := r.loc.row
    lastColumn := r.loc.column
    worst      := if r.cls = .symbol then .symbol else e.worst
    origins    := e.origins.add r.origin }

/-- R19: a hit, with the promotion test of a TRACKING entry (R20) or the proposal retry of an OVER_THRESHOLD one (R23). -/
def State.cetHit (s : State) (i : CetIdx) (r : CeRecord) : State :=
  match s.entry i with
  | none => s
  | some e =>
    let t := s.setEntry i (some (e.hit r))
    match e.state with
    | .tracking => t.promotionTest i
    | .overThreshold => t.thresholdProposal i

/-- R24: the values of a new entry. -/
def newEntry (k : Key) (r : CeRecord) : CetEntry where
  key        := k
  count      := 1
  firstSeen  := r.arrival
  lastSeen   := r.arrival
  lastRow    := r.loc.row
  lastColumn := r.loc.column
  worst      := r.cls
  origins    := OriginSet.empty.add r.origin
  state      := .tracking
  pinned     := false
  status     := .idle
  result     := none
  link       := none

/-- R24: the allocation of an index to a record, with the promotion test. -/
def State.allocate (s : State) (i : CetIdx) (r : CeRecord) : State :=
  ((s.setEntry i (some (newEntry (s.cet.policy.granularity.reduce r.loc) r))).bumpGeneration).promotionTest i

/-- R25, R29: an entry that is TRACKING, unpinned and IDLE: it may be a victim, and it leaks. -/
def CetEntry.ordinary (e : CetEntry) : Bool := e.state == .tracking && !e.pinned && e.status == .idle

/-- R11: the age of a time, in milliseconds. -/
def age (now t : Time) : Nat := (now - t).toNat

/-- R25: an entry goes before another as victim by a lower count, or by an older last seen at equal counts. -/
def CetEntry.goesBefore (now : Time) (a b : CetEntry) : Bool :=
  decide (a.count < b.count) || (decide (a.count = b.count) && decide (age now b.lastSeen < age now a.lastSeen))

/-- R25: the victim among the entries at the indices given, where `best` is the best found before them. An entry must go
strictly before the best to replace it, so the lowest index wins a tie. -/
def State.victimFrom (s : State) : List CetIdx → Option (CetIdx × CetEntry) → Option (CetIdx × CetEntry)
  | [], best => best
  | i :: rest, best =>
    match s.entry i with
    | none => s.victimFrom rest best
    | some e =>
      if e.ordinary then
        match best with
        | none => s.victimFrom rest (some (i, e))
        | some (j, b) => if e.goesBefore s.now b then s.victimFrom rest (some (i, e)) else s.victimFrom rest (some (j, b))
      else s.victimFrom rest best

/-- R25: the victim of a replacement, when any entry is eligible. -/
def State.victim (s : State) : Option CetIdx := (s.victimFrom (List.finRange 128) none).map Prod.fst

/-- R18: the index of the valid entry with a key. -/
def State.findKey (s : State) (k : Key) : Option CetIdx :=
  s.cet.entries.find (fun e => (e.map (fun e => decide (e.key = k))).getD false)

/-- R18: the lowest-index free entry. -/
def State.freeCet (s : State) : Option CetIdx := s.cet.entries.find Option.isNone

/-- R26: the victim is freed, its index is allocated to the record and the replaced counter is increased. -/
def State.replace (s : State) (i : CetIdx) (r : CeRecord) : State :=
  let t := s.freeEntry i none
  (t.setCet { t.cet with replaced := satInc t.cet.replaced }).allocate i r

/-- R27: the record is dropped: the lost counter is increased and CET_OVERFLOW is set. -/
def State.dropRecord (s : State) : State :=
  (s.setCet { s.cet with lost := satInc s.cet.lost }).setFlag .cetOverflow

/-- R18: the CET takes a CE record. -/
def State.takeCe (s : State) (r : CeRecord) : State :=
  match s.findKey (s.cet.policy.granularity.reduce r.loc) with
  | some i => s.cetHit i r
  | none =>
    match s.freeCet with
    | some i => s.allocate i r
    | none =>
      match s.victim with
      | some i => s.replace i r
      | none => s.dropRecord

/-- R29: the leak of one entry: an ordinary entry has its count decreased by one. -/
def CetEntry.leak (e : CetEntry) : CetEntry := if e.ordinary then { e with count := e.count - 1 } else e

/-- R29: the indices of the entries that the leak brings to 0. -/
def State.drained (s : State) : List CetIdx :=
  (List.finRange 128).filter (fun i => (s.entry i).any (fun e => e.ordinary && decide (e.count ≤ 1)))

/-- R29: the entries at the indices given are freed, in order. -/
def State.freeAll (s : State) (is : List CetIdx) (reason : Option AbortReason) : State :=
  is.foldl (fun t i => t.freeEntry i reason) s

/-- R29: the leak of the whole table: every ordinary entry is decreased and every entry that reaches 0 is freed. -/
def State.leakTable (s : State) : State :=
  (s.setCet { s.cet with entries := s.cet.entries.map (fun e => e.map CetEntry.leak) }).freeAll s.drained none

/-- R17: the leak timer starts with the interval in force; with an interval of 0 it does not start. -/
def State.startLeakTimer (s : State) : State :=
  s.setCet { s.cet with leakTimer := Timer.ofSetting (s.cet.policy.leakInterval * Config.msPerSecond) }

/-- R37: the indices of the valid entries, in index order. -/
def State.validIndices (s : State) : List CetIdx := (List.finRange 128).filter (fun i => (s.entry i).isSome)

end Sys2Proof.Machine
end

