-- ==== Sys2Proof/Machine/VerifyReads.lean ====
section
/-! DEFINITION. The end of a verify read, its count in the head job and the outcome of a job (R153, R154). -/

namespace Sys2Proof.Machine

/-- R153: how a verify read is counted. -/
inductive ReadResult where
  | errored | clean | noAnswer
deriving DecidableEq, Repr

/-- R153: a result counted in a job. -/
def Job.countRead (j : Job) (r : ReadResult) : Job :=
  match r with
  | .errored => { j with errored := j.errored + 1 }
  | .clean => { j with clean := j.clean + 1 }
  | .noAnswer => { j with noAnswer := j.noAnswer + 1 }

/-- R148: the reads counted. -/
def Job.counted (j : Job) : Nat := j.errored + j.clean + j.noAnswer

/-- R154: the outcome, the first that applies. -/
def Job.outcome (j : Job) : VerifyOutcome :=
  if j.persist ≤ j.errored then .persistent
  else if 1 ≤ j.errored then .intermittent
  else if 1 ≤ j.clean then .notReproduced
  else .inconclusive

/-- R154: a job reaches its outcome and leaves the queue; `rest` are the jobs behind it. -/
def State.reachOutcome (s : State) (j : Job) (rest : List Job) : State :=
  let written := s.modEntry j.cet (fun e => { e with result := some (j.outcome, s.now), status := .idle })
  let flagged := written.setFlag .verifyDone
  let proposed :=
    if j.outcome = .persistent && s.cet.policy.proposeMode = .onPersistent && flagged.unlinked j.cet then
      flagged.proposalAttempt j.cet
    else flagged
  makeHead rest (proposed.setJobs rest)

/-- R153: a read that the head job owns is counted in it; a count that reaches R brings the outcome. -/
def State.countRead (s : State) (r : ReadResult) : State :=
  match s.verify.jobs with
  | [] => s
  | j :: rest =>
    let k := j.countRead r
    if k.reads ≤ k.counted then s.reachOutcome k rest else s.setJobs (k :: rest)

/-- R153: the verify queue takes the end of the read with a tag and request number on a channel. The channel's read record
becomes absent. The read is counted when the head job owns the record and the way it ended counts (`r` is not `none`). -/
def State.endRead (s : State) (ch : Chan) (tag : Tag) (number : BitVec 8) (r : Option ReadResult) : State :=
  match s.verify.records.get ch with
  | none => s
  | some rec =>
    if rec.tag = tag ∧ rec.number = number then
      let t := s.setRecord ch none
      match r with
      | some x => if rec.owned then t.countRead x else t
      | none => t
    else s

end Sys2Proof.Machine
end

