-- ==== Sys2Proof/Machine/ScrubEngine.lean ====
section
/-! DEFINITION. The scrub engine: tags and requests, patrol steps, holds, and what a link change does to a scrub context
(R127 to R142). -/

namespace Sys2Proof.Machine

/-- R131: the lowest-numbered IDLE tag. -/
def Scrub.idleTag (c : Scrub) : Option Tag := c.tags.find Option.isNone

/-- R145: the number of BUSY tags. -/
def Scrub.busy (c : Scrub) : Nat := c.tags.count Option.isSome

/-- R131: a request is issued on a tag: the tag becomes BUSY with it, the next request number advances, the reply timer starts
and the SCRUB_REQUEST frame is sent. -/
def State.issueRequest (s : State) (ch : Chan) (tag : Tag) (kind : RequestKind) (rank : Rank) (bank : Bank) (row : Row) :
    State :=
  let c := s.scrub ch
  (s.modScrub ch (fun c => { c with
    tags := c.tags.set tag (some ⟨c.nextNumber, kind, rank, bank, row, c.replyTimeout⟩)
    nextNumber := c.nextNumber + 1 })).modTx ch (fun t => t.sendRequest tag c.nextNumber kind rank bank row)

/-- R129: the cursor advanced by one row under a geometry, and whether the pass is complete. -/
def Cursor.advance (k : Cursor) (g : Geometry) : Cursor × Bool :=
  if k.row.val + 1 = g.rows then
    if k.bank.val + 1 = g.banks then
      if k.rank.val + 1 = g.ranks then (⟨0, 0, 0⟩, true)
      else (⟨rankOfNat (k.rank.val + 1), 0, 0⟩, false)
    else (⟨k.rank, bankOfNat (k.bank.val + 1), 0⟩, false)
  else (⟨k.rank, k.bank, rowOfNat (k.row.val + 1)⟩, false)

/-- R143: the patrol becomes STOPPED, the pacing timer is stopped and step due becomes no. -/
def Scrub.stop (c : Scrub) : Scrub := { c with patrol := .stopped, pacingTimer := none, stepDue := false }

/-- R139: the segment test of a DRAINING patrol. -/
def Scrub.segmentTest (c : Scrub) : Scrub :=
  if c.patrol = .draining ∧ c.cursor.row.val % c.segment = 0 then { c with patrol := .held } else c

/-- R129, R130, R133, R139: the end of a patrol step: step due becomes no, the pacing timer starts, the cursor advances, a
completed pass is counted and ends a SINGLE_PASS patrol, and the segment test is applied to a patrol that is still DRAINING. -/
def Scrub.step (c : Scrub) (g : Geometry) : Scrub :=
  let (k, complete) := c.cursor.advance g
  let moved := { c with cursor := k, stepDue := false, pacingTimer := some c.pacing }
  let counted := if complete then { moved with passes := moved.passes + 1 } else moved
  let ended := if complete && c.mode = .singlePass then counted.stop else counted
  ended.segmentTest

/-- R133: a patrol step of a channel on an IDLE tag. -/
def State.patrolStep (s : State) (ch : Chan) (tag : Tag) : State :=
  let c := s.scrub ch
  let visited :=
    match s.lookup ch c.cursor.rank c.cursor.bank c.cursor.row with
    | some _ => s.modScrub ch (fun c =>
        { c with counters := { c.counters with skippedRetired := satInc c.counters.skippedRetired } })
    | none => s.issueRequest ch tag .patrol c.cursor.rank c.cursor.bank c.cursor.row
  let stepped := visited.modScrub ch (fun c => c.step (s.geometry ch))
  if (c.cursor.advance (s.geometry ch)).2 then stepped.setFlag .scrubPassDone else stepped

/-- R132: the patrol claimant is ready. -/
def State.patrolReady (s : State) (ch : Chan) : Bool :=
  let c := s.scrub ch
  (c.patrol == .running || c.patrol == .draining) && c.stepDue

/-- R132, R152: the head job is the ready verify claimant of a channel: it has a read to issue, the channel has no read record
and the channel's hold flag is clear. -/
def State.verifyReady (s : State) (ch : Chan) : Option Job :=
  match s.verify.jobs with
  | [] => none
  | j :: _ =>
    if j.channel = ch ∧ j.issued < j.reads ∧ s.verify.records.get ch = none ∧ (s.scrub ch).holdFlag = false then some j
    else none

/-- R152: the read-issue check of the head job, and its read on an IDLE tag. -/
def State.verifyStep (s : State) (ch : Chan) (tag : Tag) (j : Job) : State :=
  match j.location with
  | none => s
  | some l =>
    match s.lookup ch l.rank l.bank l.row with
    | some _ => s.abortJob .retired j.cet
    | none =>
      let number := (s.scrub ch).nextNumber
      let issued := s.issueRequest ch tag .verify l.rank l.bank l.row
      (issued.setRecord ch (some ⟨tag, number, true⟩)).setJobs
        ({ j with issued := j.issued + 1 } :: s.verify.jobs.tail)

/-- R132: an issue event of a channel serves the verify claimant, or otherwise the patrol claimant; when the link is not ACTIVE,
no tag is IDLE or no claimant is ready, none is taken. -/
def State.issue (s : State) (ch : Chan) : State :=
  if s.linkActive ch then
    match (s.scrub ch).idleTag with
    | none => s
    | some tag =>
      match s.verifyReady ch with
      | some j => s.verifyStep ch tag j
      | none => if s.patrolReady ch then s.patrolStep ch tag else s
  else s

/-- R138: a HOLD that the link accepts. -/
def Scrub.takeHold (c : Scrub) : Scrub :=
  if c.holdFlag then c
  else
    let held := { c with holdFlag := true, ceilingTimer := Timer.ofSetting c.ceiling }
    if c.patrol = .running then
      match c.holdPolicy with
      | .immediate => { held with patrol := .held }
      | .segment => { held with patrol := .draining }.segmentTest
    else held

/-- R140, R141, R146: the hold flag is cleared, the ceiling timer is cancelled and a DRAINING or HELD patrol becomes RUNNING. -/
def Scrub.release (c : Scrub) : Scrub :=
  { c with
    holdFlag := false
    ceilingTimer := none
    patrol := if c.patrol = .draining ∨ c.patrol = .held then .running else c.patrol }

/-- R140: a RESUME that the link accepts; it is ignored while the hold flag is clear. -/
def Scrub.takeResume (c : Scrub) : Scrub := if c.holdFlag then c.release else c

/-- R141, R146: every tag becomes IDLE and the consecutive-timeout count becomes 0. -/
def Scrub.freeTags (c : Scrub) : Scrub := { c with tags := c.tags.map (fun _ => none), timeoutRun := 0 }

/-- R141 steps 2 and 3 and the freeing of step 1; a hold that is set is released. -/
def Scrub.abandon (c : Scrub) : Scrub := if c.holdFlag then c.freeTags.release else c.freeTags

/-- R146: what a scrub context does at Soft reset. -/
def Scrub.softReset (c : Scrub) : Scrub := c.freeTags.release

/-- R141: the verify queue is told of the abandoned VERIFY requests among the tags given. -/
def State.tellAbandoned (s : State) (ch : Chan) (r : Option ReadResult) (tags : List (Tag × Option Request)) : State :=
  tags.foldl (fun t x =>
    match x.2 with
    | some q => if q.kind = .verify then t.endRead ch x.1 q.number r else t
    | none => t) s

/-- The tags of a context with the requests they hold, in tag order. -/
def Scrub.tagList (c : Scrub) : List (Tag × Option Request) := (List.finRange 4).map (fun t => (t, c.tags.get t))

/-- R141: what the scrub engine does when the link leaves ACTIVE (`r` is `none`: the abandoned verify read is not counted) or takes
a far-end SYNC (`r` is a no-answer), R153. -/
def State.abandonRequests (s : State) (ch : Chan) (r : Option ReadResult) : State :=
  (s.modScrub ch Scrub.abandon).tellAbandoned ch r (s.scrub ch).tagList

/-- R145: a row of the channel is given up for timeout or refusal. -/
def State.countSkipped (s : State) (ch : Chan) : State :=
  s.modScrub ch (fun c => { c with counters := { c.counters with skippedFailed := satInc c.counters.skippedFailed } })

/-- R97: a matching reply frees its tag, cancels its reply timer and resets the consecutive-timeout count. -/
def State.freeTag (s : State) (ch : Chan) (tag : Tag) : State :=
  s.modScrub ch (fun c => { c with tags := c.tags.set tag none, timeoutRun := 0 })

end Sys2Proof.Machine
end

