-- ==== Sys2Proof/Machine/LinkReceiver.lean ====
section
/-! DEFINITION. The link receivers: departure from ACTIVE, entry to SYNCING, the synchronization exchange, arrivals in every
link state, credits and failure (R107 to R120). The link commands stand in Machine/LinkCommands.lean. -/

namespace Sys2Proof.Machine

/-- R124: the counters of one link changed. -/
def State.modCounters (s : State) (ch : Chan) (f : LinkCounters → LinkCounters) : State :=
  s.modLink ch (fun l => { l with counters := f l.counters })

/-- R85: the number of reports in a channel's intake queue. -/
def State.queued (s : State) (ch : Chan) : Nat := (s.queues.get ch).length

/-- R107: a change of a link's state sets LINK_CHANGE. -/
def State.setLinkState (s : State) (ch : Chan) (st : LinkState) : State :=
  (s.modLink ch (fun l => { l with state := st })).setFlag .linkChange

/-- R113: the credits and the consecutive check-failure count of a link become 0. -/
def Link.dropCredits (l : Link) : Link := { l with outstanding := 0, awaiting := 0, checkFailures := 0 }

/-- R113: the link leaves ACTIVE for SYNCING or FAILED. DEDUCED (log entry 6): the link state changes before the verify queue acts,
so that a further job of the same channel that becomes the head finds the link not ACTIVE (R151). -/
def State.departActive (s : State) (ch : Chan) (st : LinkState) : State :=
  let left := ((s.setLinkState ch st).modLink ch Link.dropCredits).modTx ch Transmitter.withdraw
  (left.abandonRequests ch none).abortRunningOn ch

/-- R114, R120: the link becomes FAILED from ACTIVE. -/
def State.failLink (s : State) (ch : Chan) : State := s.departActive ch .failed

/-- R110: entry to SYNCING. -/
def State.enterSyncing (s : State) (ch : Chan) : State :=
  let left := if s.linkActive ch then s.departActive ch .syncing else (s.setLinkState ch .syncing).abortRunningOn ch
  (left.modLink ch (fun l =>
    { l.dropCredits with attempts := 1, attemptTimer := some Config.syncAttemptMs })).modTx ch Transmitter.sendSync

/-- R111: the expiry of the sync attempt timer of a SYNCING link. -/
def State.attemptExpiry (s : State) (ch : Chan) : State :=
  if (s.link ch).attempts < Config.syncAttempts then
    (s.modLink ch (fun l =>
      { l with attempts := l.attempts + 1, attemptTimer := some Config.syncAttemptMs })).modTx ch Transmitter.sendSync
  else
    (s.setLinkState ch .failed).modLink ch (fun l => { l with attempts := 0, attemptTimer := none })

/-- R112, R119: the fresh count that a SYNC starts: the expected sequence number, the credits and the check failures. -/
def Link.startCount (l : Link) (seq : BitVec 8) (occupancy : Nat) : Link :=
  { l with
    expected      := seq + 1
    awaiting      := 0
    outstanding   := Config.queueSize - occupancy
    checkFailures := 0
    counters      := { l.counters with accepted := satInc l.counters.accepted } }

/-- R112: a SYNC is taken in SYNCING. -/
def State.syncInSyncing (s : State) (ch : Chan) (seq : BitVec 8) : State :=
  let counted := s.modLink ch (fun l =>
    { l.startCount seq (s.queued ch) with attempts := 0, attemptTimer := none })
  (counted.sendCredit ch (Config.queueSize - s.queued ch)).setLinkState ch .active

/-- R119: a SYNC is taken in ACTIVE, as a far-end restart. -/
def State.syncInActive (s : State) (ch : Chan) (seq : BitVec 8) : State :=
  let told := (s.modTx ch Transmitter.withdraw).abandonRequests ch (some .noAnswer)
  let counted := told.modLink ch (fun l =>
    let m := l.startCount seq (s.queued ch)
    { m with counters := { m.counters with restarts := satInc m.counters.restarts } })
  counted.sendCredit ch (Config.queueSize - s.queued ch)

/-- R115: how a frame's sequence number stands to the expected one. -/
inductive SeqClass where
  | expected
  | gap (size : Nat)
  | duplicate
deriving DecidableEq, Repr

/-- R10, R115: the distance from the expected number forward to the frame's number, and its meaning. -/
def seqClass (expected seq : BitVec 8) : SeqClass :=
  let d := (seq - expected).toNat
  if d = 0 then .expected else if d ≤ 127 then .gap d else .duplicate

/-- R115: the sequence number of a frame is taken: the expected number becomes the frame's number plus one. -/
def State.takeSeq (s : State) (ch : Chan) (seq : BitVec 8) : State := s.modLink ch (fun l => { l with expected := seq + 1 })

/-- R115: a gap adds its size to the lost counter and sets REPORTS_LOST. -/
def State.countGap (s : State) (ch : Chan) (size : Nat) : State :=
  (s.modCounters ch (fun c => { c with lost := satAdd c.lost size })).setFlag .reportsLost

/-- R114 to R116: a frame that passes the check and is not a SYNC arrives in ACTIVE. `onward` is what the frame's kind does once its
sequence number has been taken. -/
def State.arriveActive (s : State) (ch : Chan) (seq : BitVec 8) (onward : State → State) : State :=
  let passed := s.modLink ch (fun l => { l with checkFailures := 0 })
  match seqClass (s.link ch).expected seq with
  | .expected => onward (passed.takeSeq ch seq)
  | .gap d => onward ((passed.takeSeq ch seq).countGap ch d)
  | .duplicate => passed.modCounters ch (fun c => { c with duplicates := satInc c.duplicates })

/-- R108: a frame that passes the check and is not a SYNC arrives, by the link state. -/
def State.arrive (s : State) (ch : Chan) (seq : BitVec 8) (onward : State → State) : State :=
  match (s.link ch).state with
  | .down => s
  | .syncing => s.modCounters ch (fun c => { c with outOfState := satInc c.outOfState })
  | .failed => s.modCounters ch (fun c => { c with outOfState := satInc c.outOfState })
  | .active => s.arriveActive ch seq onward

/-- R116: a frame of a known kind is accepted. -/
def State.accept (s : State) (ch : Chan) : State := s.modCounters ch (fun c => { c with accepted := satInc c.accepted })

/-- R117: an accepted credit-bearing frame joins the intake queue for one credit, or is a credit violation. -/
def State.joinQueue (s : State) (ch : Chan) (r : Report) : State :=
  if 1 ≤ (s.link ch).outstanding then
    (s.modLink ch (fun l => { l with outstanding := l.outstanding - 1 })).setQueues
      (s.queues.modify ch (fun q => q ++ [r]))
  else
    (s.modCounters ch (fun c => { c with creditViolations := satInc c.creditViolations })).setFlag .creditViolation

/-- R108, R112, R119: a SYNC that passes the check arrives, by the link state. -/
def State.arriveSync (s : State) (ch : Chan) (seq : BitVec 8) : State :=
  match (s.link ch).state with
  | .down => s
  | .syncing => s.syncInSyncing ch seq
  | .failed => s.modCounters ch (fun c => { c with outOfState := satInc c.outOfState })
  | .active => s.syncInActive ch seq

/-- R108, R114: a frame that fails the check arrives, by the link state. -/
def State.arriveFailing (s : State) (ch : Chan) : State :=
  let counted := s.modCounters ch (fun c => { c with checkFailures := satInc c.checkFailures })
  match (s.link ch).state with
  | .down => s
  | .syncing => counted
  | .failed => counted
  | .active =>
    let run := counted.modLink ch (fun l => { l with checkFailures := l.checkFailures + 1 })
    if Config.checkFailureLimit ≤ (s.link ch).checkFailures + 1 then run.failLink ch else run

/-- R136, R137: the expiry of a BUSY tag's reply timer. -/
def State.replyExpiry (s : State) (ch : Chan) (tag : Tag) (q : Request) : State :=
  let freed := (s.modScrub ch (fun c => { c with
    tags       := c.tags.set tag none
    timeoutRun := c.timeoutRun + 1
    counters   := { c.counters with timeouts := satInc c.counters.timeouts } })).modTx ch (fun t => t.withdrawRequest tag)
  let counted :=
    match q.kind with
    | .patrol => freed.countSkipped ch
    | .verify => freed.endRead ch tag q.number (some .noAnswer)
  if Config.timeoutLimit ≤ (s.scrub ch).timeoutRun + 1 then counted.failLink ch else counted

/-- R118: the credits of a channel after a take from its queue: one more awaits return, and all are returned when they reach the
batch or the take has left the queue empty. -/
def State.returnCredit (s : State) (ch : Chan) : State :=
  if s.linkActive ch then
    let n := (s.link ch).awaiting + 1
    if s.batch ≤ n ∨ s.queued ch = 0 then
      (s.modLink ch (fun l => { l with outstanding := l.outstanding + n, awaiting := 0 })).sendCredit ch n
    else
      s.modLink ch (fun l => { l with awaiting := n })
  else s

end Sys2Proof.Machine
end

