-- ==== Sys2Proof/Machine/UeLog.lean ====
section
/-! DEFINITION. The uncorrectable error log: appends, losses, window expiries and removal (R65 to R77). -/

namespace Sys2Proof.Machine

/-- R69: what the classifier passes to the UEL. -/
structure UeAppend where
  loc       : Loc
  cls       : UeClass
  origin    : Origin
  inRetired : Bool
deriving DecidableEq, Repr

/-- R70: the record that an append stores. -/
def newRecord (a : UeAppend) (id : BitVec 8) (now : Time) (window : Nat) : UeRecord where
  id        := id
  loc       := a.loc
  cls       := a.cls
  origin    := a.origin
  inRetired := a.inRetired
  arrival   := now
  ack       := .opened
  window    := Timer.ofSetting window

/-- R70: a record is stored and UE_LOGGED is set. -/
def State.storeUe (s : State) (a : UeAppend) : State :=
  (s.setUel { s.uel with
    records := s.uel.records ++ [newRecord a s.uel.nextId s.now s.uel.policy.systemWindow]
    nextId  := s.uel.nextId + 1 }).setFlag .ueLogged

/-- R71: the proposal of a stored record, with its id as evidence. The UEL keeps no link to the answer (R45). -/
def State.ueProposal (s : State) (a : UeAppend) (id : BitVec 8) : State :=
  if s.uel.policy.proposeOnUe && (s.containing a.loc).isNone then (s.propose a.loc.rowRange (.ue id)).1 else s

/-- R72: an uncorrectable error is lost. -/
def State.loseUe (s : State) (a : UeAppend) : State :=
  let counted := s.setUel { s.uel with
    overflow  := satInc s.uel.overflow
    firstLost := s.uel.firstLost.or (some ⟨a.loc, a.cls, a.origin, s.now⟩) }
  let flagged := counted.setFlag .uelOverflow
  if s.uel.policy.fatalOnOverflow then flagged.setFatal .overflow else flagged

/-- R70 to R72: the UEL takes an append. -/
def State.appendUe (s : State) (a : UeAppend) : State :=
  if s.uel.records.length < Config.uelSize then (s.storeUe a).ueProposal a s.uel.nextId else s.loseUe a

/-- The record at a position of the log (R65). -/
def State.ueAt (s : State) (i : Nat) : Option UeRecord := s.uel.records[i]?

/-- The record at a position of the log changed in place. -/
def State.modUe (s : State) (i : Nat) (f : UeRecord → UeRecord) : State :=
  s.setUel { s.uel with records := s.uel.records.modify i f }

/-- R74: the record at a position is handed over. -/
def State.handOver (s : State) (i : Nat) : State :=
  (s.modUe i (fun r =>
    { r with ack := .handedOver, window := Timer.ofSetting s.uel.policy.serviceWindow })).setFlag .ueHandover

/-- R75: the record at a position is escalated. -/
def State.escalate (s : State) (i : Nat) : State :=
  let raised := (s.modUe i (fun r => { r with ack := .escalated, window := none })).setFlag .ueEscalated
  if s.uel.policy.fatalOnEscalation then raised.setFatal .escalation else raised

/-- R67: the position of the oldest record held with an id. -/
def State.findUe (s : State) (id : Nat) : Option Nat := s.uel.records.findIdx? (fun r => r.id.toNat == id)

/-- R77: the record at a position leaves the log and every later record moves forward. -/
def State.removeUe (s : State) (i : Nat) : State := s.setUel { s.uel with records := s.uel.records.eraseIdx i }

end Sys2Proof.Machine
end

