-- ==== Sys2Proof/Machine/Classifier.lean ====
section
/-! DEFINITION. The intake arbiter and the classifier (R86, R88 to R98). -/

namespace Sys2Proof

/-- The corrected classes among the classes of a report (R93). -/
def ErrClass.corrected : ErrClass → Option CeClass
  | .bit => some .bit
  | .symbol => some .symbol
  | .uncorrectable => none
  | .poison => none

/-- The class of the UE record that a report makes (R69); a corrected class makes none. -/
def ErrClass.uncorrected : ErrClass → Machine.UeClass
  | .poison => .poison
  | .uncorrectable => .uncorrectable
  | .bit => .uncorrectable
  | .symbol => .uncorrectable

/-- The origin of a link report (R93). -/
def LinkOrigin.origin : LinkOrigin → Machine.Origin
  | .demand => .demand
  | .controller => .controller

/-- R96: the reply is malformed: CORRECTED or UNCORRECTABLE with error count 0. -/
def ScrubReply.malformed (r : ScrubReply) : Bool :=
  (r.result == .corrected || r.result == .uncorrectable) && r.errorCount == 0

/-- R153: how the verify queue counts a reply's result. -/
def ReplyResult.counted : ReplyResult → Machine.ReadResult
  | .clean => .clean
  | .corrected => .errored
  | .uncorrectable => .errored
  | .refused => .noAnswer

end Sys2Proof

namespace Sys2Proof.Machine

/-- R89: the source holds a report. -/
def State.nonEmpty (s : State) : Source → Bool
  | .channel ch => !(s.queues.get ch).isEmpty
  | .slot => s.intake.slot.isSome

/-- R89: the sources in their circular order, from channel 0 on. -/
def allSources : List Source := (List.finRange 8).map Source.channel ++ [.slot]

/-- R89: the place of a source in the circular order. -/
def Source.place : Source → Nat
  | .channel ch => ch.val
  | .slot => 8

/-- R89: the nine sources from the one after the last-served source on; the last-served source comes last. -/
def Source.following (x : Source) : List Source := allSources.rotate (x.place + 1)

/-- R89: the source that the arbiter chooses, when any is non-empty. -/
def State.choose (s : State) : Option Source :=
  match s.intake.mode with
  | .rotating => s.intake.lastServed.following.find? s.nonEmpty
  | .fixed => allSources.find? s.nonEmpty

/-- R93, R97: a corrected error at a location is suppressed by the CONFIRMED range that contains it, or goes to the CET. -/
def State.routeCorrected (s : State) (l : Loc) (cls : CeClass) (origin : Origin) : State :=
  match s.lookupLoc l with
  | some i => s.suppress i
  | none => s.takeCe ⟨l, cls, origin, s.now⟩

/-- R94, R97, R98: an uncorrectable error at a location goes to the UEL with the answer of the lookup. -/
def State.routeUncorrectable (s : State) (l : Loc) (cls : UeClass) (origin : Origin) : State :=
  s.appendUe ⟨l, cls, origin, (s.lookupLoc l).isSome⟩

/-- R100: the channel's malformed-report counter is increased by one. -/
def State.countMalformed (s : State) (ch : Chan) : State :=
  s.modClassifier ch (fun c => { c with malformed := satInc c.malformed })

/-- R92 to R94: the classifier handles an ERROR report. -/
def State.classifyError (s : State) (l : Loc) (cls : ErrClass) (origin : Origin) : State :=
  if l.within (s.geometry l.channel) then
    match cls.corrected with
    | some c => s.routeCorrected l c origin
    | none => s.routeUncorrectable l cls.uncorrected origin
  else s.countMalformed l.channel

/-- The location of a scrub reply: the row of the request that it answers and the reply's first errored column (R97). -/
def Request.loc (q : Request) (ch : Chan) (column : Col) : Loc := ⟨ch, q.rank, q.bank, q.row, column⟩

/-- R96: a malformed reply, after its tag has been freed. -/
def State.malformedReply (s : State) (ch : Chan) (r : ScrubReply) (q : Request) : State :=
  let counted := s.countMalformed ch
  match q.kind with
  | .patrol => counted.countSkipped ch
  | .verify => counted.endRead ch r.tag q.number (some .noAnswer)

/-- R97: a reply to a PATROL request, after its tag has been freed. -/
def State.patrolReply (s : State) (ch : Chan) (r : ScrubReply) (q : Request) : State :=
  match r.result with
  | .clean => s
  | .corrected => s.routeCorrected (q.loc ch r.column) r.cls .patrol
  | .uncorrectable => s.routeUncorrectable (q.loc ch r.column) .uncorrectable .patrol
  | .refused => s.countSkipped ch

/-- R98: a reply to a VERIFY request, after its tag has been freed. DEDUCED (log entry 19): the verify queue acts before the
UEL. -/
def State.verifyReply (s : State) (ch : Chan) (r : ScrubReply) (q : Request) : State :=
  let counted := s.endRead ch r.tag q.number (some r.result.counted)
  if r.result = .uncorrectable then counted.routeUncorrectable (q.loc ch r.column) .uncorrectable .verify else counted

/-- R95: the request that a reply matches, when its tag is BUSY with the reply's request number. -/
def State.matching (s : State) (ch : Chan) (r : ScrubReply) : Option Request :=
  match (s.scrub ch).tags.get r.tag with
  | some q => if q.number = r.request then some q else none
  | none => none

/-- R95 to R98: the classifier handles a SCRUB_REPLY. -/
def State.classifyReply (s : State) (ch : Chan) (r : ScrubReply) : State :=
  match s.matching ch r with
  | none => s.modClassifier ch (fun c => { c with stale := satInc c.stale })
  | some q =>
    let freed := s.freeTag ch r.tag
    if r.malformed then freed.malformedReply ch r q
    else
      match q.kind with
      | .patrol => freed.patrolReply ch r q
      | .verify => freed.verifyReply ch r q

/-- R91: the classifier handles a report of a channel's queue. -/
def State.classify (s : State) (ch : Chan) (r : Report) : State :=
  match r with
  | .error e => s.classifyError ⟨ch, e.rank, e.bank, e.row, e.column⟩ e.cls e.origin.origin
  | .reply x => s.classifyReply ch x

/-- R89: the chosen source becomes the last-served source. -/
def State.serve (s : State) (x : Source) : State := s.setIntake { s.intake with lastServed := x }

/-- R86, R90: a take of the head report of a channel's queue. -/
def State.takeFrom (s : State) (ch : Chan) : State :=
  match s.queues.get ch with
  | [] => s
  | r :: rest => (((s.serve (.channel ch)).setQueues (s.queues.set ch rest)).returnCredit ch).classify ch r

/-- R87, R90: a take of the injection slot. -/
def State.takeSlot (s : State) : State :=
  match s.intake.slot with
  | none => s
  | some r => (s.setIntake { s.intake with slot := none, lastServed := .slot }).classifyError r.loc r.cls .injected

/-- R90: a take of the intake arbiter; when every source is empty, none occurs. -/
def State.take (s : State) : State :=
  match s.choose with
  | none => s
  | some (.channel ch) => s.takeFrom ch
  | some .slot => s.takeSlot

end Sys2Proof.Machine
end

