-- ==== Sys2Proof/Machine/Operands.lean ====
section
/-! DEFINITION. The operand and result forms of the register words: bit fields, parameter words, enumeration codes and result
layouts (R185, R188). -/

namespace Sys2Proof.Machine

/-- The unsigned number that bits `hi` to `lo` of a word hold. -/
def field (w : Word) (hi lo : Nat) : Nat := w.toNat / 2 ^ lo % 2 ^ (hi + 1 - lo)

/-- A word with the number `v` in bits `hi` to `lo` and 0 in the others. -/
def placed (hi lo v : Nat) : Word := BitVec.ofNat 32 (v % 2 ^ (hi + 1 - lo) * 2 ^ lo)

/-- A word made of fields (hi, lo, value); unnamed bits are 0. -/
def pack (fields : List (Nat × Nat × Nat)) : Word :=
  fields.foldl (fun w f => w ||| placed f.1 f.2.1 f.2.2) 0

/-- The number as an index of a table of `n`, when it is one. -/
def finOf (n k : Nat) : Option (Fin n) := if h : k < n then some ⟨k, h⟩ else none

/-- R188: a location parameter in words A and B; `none` when a field is beyond its field range (R2). -/
def locParam (a b : Word) : Option Loc := do
  let ch ← finOf 8 (field a 3 0)
  let rank ← finOf 4 (field a 7 4)
  let bank ← finOf 32 (field a 15 8)
  let column ← finOf 1024 (field a 27 16)
  let row ← finOf 262144 (field b 19 0)
  return ⟨ch, rank, bank, row, column⟩

/-- R188: a range parameter in word A, its column ignored, and two words B; `none` when a field is beyond its field range. -/
def rangeParam (a first last : Word) : Option Range := do
  let ch ← finOf 8 (field a 3 0)
  let rank ← finOf 4 (field a 7 4)
  let bank ← finOf 32 (field a 15 8)
  let f ← finOf 262144 (field first 19 0)
  let l ← finOf 262144 (field last 19 0)
  return ⟨ch, rank, bank, f, l⟩

/-- R188: a cursor parameter in word A, its channel and column ignored, and word B. -/
def cursorParam (a b : Word) : Option Cursor := do
  let rank ← finOf 4 (field a 7 4)
  let bank ← finOf 32 (field a 15 8)
  let row ← finOf 262144 (field b 19 0)
  return ⟨rank, bank, row⟩

/-- R188: a channel parameter in a word of its own. DEDUCED (log entry 10): the whole word is the value. -/
def chanParam (w : Word) : Option Chan := finOf 8 w.toNat

/-- R188: an index, an id or the value of READ_UE, in bits 15 to 0. -/
def indexParam (w : Word) : Nat := field w 15 0

/-- R188: yes and on are 1, no and off are 0; any other code names no value. -/
def boolOfCode : Nat → Option Bool
  | 0 => some false
  | 1 => some true
  | _ => none

/-- R188: granularity CELL, ROW, BANK. -/
def granularityOfCode : Nat → Option Granularity
  | 0 => some .cell
  | 1 => some .row
  | 2 => some .bank
  | _ => none

/-- R188: propose mode OFF, ON_THRESHOLD, ON_PERSISTENT. -/
def proposeModeOfCode : Nat → Option ProposeMode
  | 0 => some .off
  | 1 => some .onThreshold
  | 2 => some .onPersistent
  | _ => none

/-- R188: arbiter mode ROTATING, FIXED. -/
def arbiterModeOfCode : Nat → Option ArbiterMode
  | 0 => some .rotating
  | 1 => some .fixed
  | _ => none

/-- R188: class BIT, SYMBOL, UNCORRECTABLE, POISON. -/
def errClassOfCode : Nat → Option ErrClass
  | 0 => some .bit
  | 1 => some .symbol
  | 2 => some .uncorrectable
  | 3 => some .poison
  | _ => none

/-- R188: mode CONTINUOUS, SINGLE_PASS. -/
def patrolModeOfCode : Nat → Option PatrolMode
  | 0 => some .continuous
  | 1 => some .singlePass
  | _ => none

/-- R188: hold policy IMMEDIATE, SEGMENT. -/
def holdPolicyOfCode : Nat → Option HoldPolicy
  | 0 => some .immediate
  | 1 => some .segment
  | _ => none

/-- R185: authority SYSTEM_ONLY, SERVICE_ONLY, BOTH. -/
def authorityOfCode : Nat → Option Authority
  | 0 => some .systemOnly
  | 1 => some .serviceOnly
  | 2 => some .both
  | _ => none

def Authority.code : Authority → Nat
  | .systemOnly => 0
  | .serviceOnly => 1
  | .both => 2

def LinkState.code : LinkState → Nat
  | .down => 0
  | .syncing => 1
  | .active => 2
  | .failed => 3

def PatrolState.code : PatrolState → Nat
  | .stopped => 0
  | .running => 1
  | .draining => 2
  | .held => 3

def PatrolMode.code : PatrolMode → Nat
  | .continuous => 0
  | .singlePass => 1

def VerifyStatus.code : VerifyStatus → Nat
  | .idle => 0
  | .queued => 1
  | .running => 2

def VerifyOutcome.code : VerifyOutcome → Nat
  | .persistent => 0
  | .intermittent => 1
  | .notReproduced => 2
  | .inconclusive => 3

def UeClass.code : UeClass → Nat
  | .uncorrectable => 2
  | .poison => 3

/-- Origins are coded DEMAND 0, CONTROLLER 1, PATROL 2, INJECTED 3 and VERIFY 4. -/
def Origin.code : Origin → Nat
  | .demand => 0
  | .controller => 1
  | .patrol => 2
  | .injected => 3
  | .verify => 4

def AckState.code : AckState → Nat
  | .opened => 0
  | .handedOver => 1
  | .escalated => 2

def AbortReason.code : AbortReason → Nat
  | .cleared => 0
  | .retired => 1
  | .link => 2

def RetState.code : RetState → Nat
  | .proposed => 0
  | .confirmed => 1

def ArbiterMode.code : ArbiterMode → Nat
  | .rotating => 0
  | .fixed => 1

def MailState.code : MailState → Nat
  | .empty => 0
  | .pending => 1
  | .running => 2
  | .done => 3

/-- R185: the result codes. -/
def ResultCode.code : ResultCode → Nat
  | .none => 0
  | .ok => 1
  | .busy => 2
  | .badCommand => 3
  | .badParam => 4
  | .notFound => 5
  | .full => 6
  | .limit => 7
  | .overlap => 8
  | .stateConflict => 9
  | .notPermitted => 10

/-- R188: word A of a location. -/
def wordA (ch rank bank column : Nat) : Word := pack [(3, 0, ch), (7, 4, rank), (15, 8, bank), (27, 16, column)]

/-- R188: word B of a location. -/
def wordB (row : Nat) : Word := pack [(19, 0, row)]

/-- A word that holds one value. -/
def num (n : Nat) : Word := BitVec.ofNat 32 n

/-- A page of six words from a list; words that the list lacks are 0. -/
def page (ws : List Word) : Table Word 6 := ⟨(List.range 6).map (fun k => ws.getD k 0), by simp⟩

/-- R165: three result pages; a page that a command does not use is 0. -/
def pages (p0 p1 p2 : List Word) : Pages := ⟨[page p0, page p1, page p2], rfl⟩

/-- A bit set by a truth value. -/
def flagBit (n : Nat) (b : Bool) : Nat × Nat × Nat := (n, n, b.toNat)

/-- READ_CET, page 0: a valid entry, or the read-back values of a free one (R13, R34). DESIGN CHOICE (log entry 21): in a valid
entry the bits of the key's row and column, of the outcome and of the proposal link are 0 where that field is absent. -/
def cetPage0 (e : Option CetEntry) (generation : BitVec 16) : List Word :=
  match e with
  | none => [0, 0, 0, pack [(31, 16, generation.toNat)], 0, 0]
  | some e =>
    [ pack [flagBit 0 true, flagBit 1 e.key.row.isSome, flagBit 2 e.key.column.isSome, flagBit 3 (e.state == .overThreshold),
        flagBit 4 e.pinned, flagBit 5 (e.worst == .symbol), (7, 6, e.status.code), flagBit 8 e.origins.demand,
        flagBit 9 e.origins.controller, flagBit 10 e.origins.patrol, flagBit 11 e.origins.injected,
        flagBit 12 e.result.isSome, (14, 13, (e.result.map (fun r => r.1.code)).getD 0), flagBit 15 e.link.isSome,
        (20, 16, (e.link.map Fin.val).getD 0)],
      wordA e.key.channel.val e.key.rank.val e.key.bank.val ((e.key.column.map Fin.val).getD 0),
      wordB ((e.key.row.map Fin.val).getD 0),
      pack [(15, 0, e.count), (31, 16, generation.toNat)],
      e.firstSeen, e.lastSeen ]

/-- READ_CET, page 1; the words of a free entry are 0 (R13, R34). DESIGN CHOICE (log entry 21): the verify result time of a valid
entry without a result is 0. -/
def cetPage1 (e : Option CetEntry) : List Word :=
  match e with
  | none => [0, 0, 0]
  | some e => [num e.lastRow.val, num e.lastColumn.val, (e.result.map Prod.snd).getD 0]

/-- The kind and the value of a retirement entry's evidence, coded absent 0, CET 1, UE 2. -/
def evidenceCode : Option Evidence → Nat × Nat
  | none => (0, 0)
  | some (.cet i) => (1, i.val)
  | some (.ue id) => (2, id.toNat)

/-- READ_RETIRE: a valid entry, or the read-back values of a free one (R42, R58). DESIGN CHOICE (log entry 21): in a valid entry
the evidence bits are 0 where the evidence is absent, and so is the confirmed time where it is absent. -/
def retirePage (e : Option RetEntry) (proposed confirmed : Nat) : List Word :=
  match e with
  | none => [0, pack [(21, 16, proposed), (29, 24, confirmed)], 0, 0, 0, 0]
  | some e =>
    [ pack [flagBit 0 true, flagBit 1 (e.state == .confirmed), flagBit 2 (e.origin == .host), flagBit 3 e.confirmed.isSome,
        (5, 4, (evidenceCode e.evidence).1), (15, 8, (evidenceCode e.evidence).2), (31, 16, e.suppressed)],
      pack [(3, 0, e.range.channel.val), (7, 4, e.range.rank.val), (15, 8, e.range.bank.val), (21, 16, proposed),
        (29, 24, confirmed)],
      num e.range.first.val, num e.range.last.val, e.created, e.confirmed.getD 0 ]

/-- Words A and B of a location. -/
def locWords (l : Loc) : List Word := [wordA l.channel.val l.rank.val l.bank.val l.column.val, wordB l.row.val]

/-- READ_UE: the record at a position of a log that holds `held` records (R81). DESIGN CHOICE (log entry 21): the remaining window
of a record without a window is 0. -/
def uePage (r : UeRecord) (position held : Nat) : List Word :=
  [ pack [(7, 0, r.id.toNat), (9, 8, r.cls.code), (14, 12, r.origin.code), flagBit 15 r.inRetired, (17, 16, r.ack.code),
      flagBit 18 r.window.isSome, (23, 20, position), (28, 24, held)] ]
    ++ locWords r.loc ++ [r.arrival, num (r.window.getD 0)]

/-- READ_UE_OVERFLOW: the overflow counter and the first-lost summary (R82). DESIGN CHOICE (log entry 21): the class, the origin,
the location and the time are 0 where the summary is empty. -/
def overflowPage (overflow : Nat) (lost : Option LostUe) : List Word :=
  match lost with
  | none => [num overflow, 0, 0, 0, 0]
  | some l =>
    [num overflow, pack [flagBit 0 true, (9, 8, l.cls.code), (14, 12, l.origin.code)]] ++ locWords l.loc ++ [l.time]

/-- Two counters in one word, the first in bits 15 to 0. -/
def pair (a b : Nat) : Word := pack [(15, 0, a), (31, 16, b)]

/-- READ_COUNTERS, page 0: the nine link counters in the order of R124. -/
def linkPage (c : LinkCounters) : List Word :=
  [ pair c.accepted c.checkFailures, pair c.lost c.duplicates, pair c.creditViolations c.malformed,
    pair c.outOfState c.restarts, pair c.discarded 0 ]

/-- READ_COUNTERS, page 1: the ten counters in the order of R170. -/
def tablePage (k : ClassifierCounters) (c : ScrubCounters) (t : Cet) (l : RetireList) : List Word :=
  [ pair k.malformed k.stale, pair c.timeouts c.skippedRetired, pair c.skippedFailed t.lost,
    pair t.replaced t.verifyQueueFull, pair l.merged l.refused ]

/-- READ_COUNTERS, page 2, and SCRUB_CONTROL: the scrub state. DEDUCED (log entry 11): the channel and the column of the cursor's
word A are 0, since a cursor has neither. -/
def scrubPage (c : Scrub) : List Word :=
  [ pack [(1, 0, c.patrol.code), (2, 2, c.mode.code), flagBit 3 c.holdFlag, (6, 4, c.busy), (9, 8, c.timeoutRun),
      (31, 16, c.passes.toNat)],
    wordA 0 c.cursor.rank.val c.cursor.bank.val 0, wordB c.cursor.row.val ]

/-- READ_STATUS: a word of 4 bits per channel, channel n at bits 4n+3 to 4n. -/
def perChannel (f : Chan → Nat) : Word := pack ((List.finRange 8).map (fun ch => (4 * ch.val + 3, 4 * ch.val, f ch)))

/-- READ_STATUS (R158, R171). DESIGN CHOICE (log entry 21): the head index is 0 where there is no head job, and the reason and the
index of the last abort are 0 where there is no summary. -/
def statusPage (s : State) : List Word :=
  [ perChannel s.queued, perChannel (fun ch => (s.link ch).outstanding), perChannel (fun ch => (s.link ch).awaiting),
    pack [flagBit 0 s.intake.slot.isSome, (1, 1, s.intake.mode.code), (7, 4, s.verify.jobs.length),
      flagBit 8 (s.verify.jobs.head?).isSome, (22, 16, ((s.verify.jobs.head?).map (fun j => j.cet.val)).getD 0)],
    match s.verify.lastAbort with
    | none => 0
    | some (r, i) => pack [flagBit 0 true, (2, 1, r.code), (14, 8, i.val)] ]

end Sys2Proof.Machine
end

