-- ==== Sys2Proof/Machine/Engine.lean ====
section
/-! DEFINITION. The mailboxes, the command engine and its arbiter: how a command is chosen, taken, tested and completed
(R160 to R167). The bodies of the commands stand in the files of their families. -/

namespace Sys2Proof.Machine

/-- What the part does with an event: it is ignored while RST_N is asserted (R184). -/
def State.whileRunning (s : State) (f : State → State) : Host.Outcome State Fault Refusal :=
  .next (if s.rst then s else f s)

/-- R164: the engine is idle when no command is RUNNING. -/
def State.engineIdle (s : State) : Bool := s.sysMail.state != .running && s.svcMail.state != .running

/-- The port whose command is RUNNING, when there is one. -/
def State.runningPort (s : State) : Option Port :=
  if s.sysMail.state = .running then some .system
  else if s.svcMail.state = .running then some .service
  else none

/-- R164: the mailbox whose command the arbiter takes. -/
def State.arbiterChoice (s : State) : Option Port :=
  if s.engineIdle then
    match s.sysMail.state == .pending, s.svcMail.state == .pending with
    | false, false => none
    | true, false => some .system
    | false, true => some .service
    | true, true =>
      if s.engine.serviceFirst then some .service
      else
        match s.engine.lastServed with
        | .system => some .service
        | .service => some .system
  else none

/-- How a command ends in the event of its take. -/
inductive Answer where
  /-- it completes with a result code and result pages -/
  | done (code : ResultCode) (result : Pages)
  /-- it stays RUNNING: a purge has begun (R59) -/
  | running
deriving DecidableEq, Repr

/-- R166: a refusal, with result words 0. -/
def refusal (code : ResultCode) : Answer := .done code (pages [] [] [])

/-- R165: OK with one page of result words. -/
def okWords (ws : List Word) : Answer := .done .ok (pages ws [] [])

/-- R178: the done flag of a port. -/
def doneFlag : Port → EventFlag
  | .system => .sysCmdDone
  | .service => .svcCmdDone

/-- R165: the completion of the command in a port's mailbox. -/
def State.complete (s : State) (p : Port) (code : ResultCode) (result : Pages) : State :=
  (s.setMail p { s.mail p with state := .done, code := code, result := result }).setFlag (doneFlag p)

/-- R166: the ports from which a command is admitted. -/
inductive Admission where
  /-- either port -/
  | any
  /-- the Service port alone -/
  | serviceOnly
  /-- the ports that the retirement authority in force admits (R52) -/
  | authority
deriving DecidableEq, Repr

/-- R52: the retirement authority admits a port. -/
def Authority.admits (a : Authority) (p : Port) : Bool :=
  match a, p with
  | .systemOnly, .system => true
  | .systemOnly, .service => false
  | .serviceOnly, .system => false
  | .serviceOnly, .service => true
  | .both, _ => true

/-- R166: the port may issue the command. -/
def State.admitted (s : State) (a : Admission) (p : Port) : Bool :=
  match a with
  | .any => true
  | .serviceOnly => p == .service
  | .authority => s.engine.authority.admits p

/-- What a command does once it has passed the engine's tests: from the port it came from and its latched parameters. -/
abbrev Body := Port → Table Word 6 → State → State × Answer

/-- R165: the mailbox of a port becomes RUNNING with its parameters latched, and the port becomes the last-served port. -/
def State.latch (s : State) (p : Port) : State :=
  (s.setMail p { s.mail p with state := .running, latched := (s.mail p).params }).setEngine
    { s.engine with lastServed := p }

/-- R165, R166: a latched command is tested for its port and carried out. -/
def State.carryOut (s : State) (p : Port) (a : Admission) (body : Body) : State :=
  if s.admitted a p then
    match body p (s.mail p).latched s with
    | (t, .done code result) => t.complete p code result
    | (t, .running) => t
  else s.complete p .notPermitted (pages [] [] [])

/-- R164, R165: the engine takes the command that the arbiter chooses, when it is the command that `names` names; otherwise this
take does not occur. -/
def State.engineTake (s : State) (names : Word → Table Word 6 → Bool) (a : Admission) (body : Body) : State :=
  match s.arbiterChoice with
  | none => s
  | some p => if names (s.mail p).command (s.mail p).params then (s.latch p).carryOut p a body else s

/-- The COMMAND value is the code given. -/
def codeIs (n : Nat) (command : Word) (_params : Table Word 6) : Bool := command == BitVec.ofNat 32 n

/-- The code of SCRUB_CONTROL. -/
def scrubControlCode : Nat := 64

/-- R188: the action code of a SCRUB_CONTROL. -/
def scrubAction (params : Table Word 6) : Nat := field (params.get 0) 11 8

/-- The COMMAND value is SCRUB_CONTROL with the action given. -/
def actionIs (n : Nat) (command : Word) (params : Table Word 6) : Bool :=
  codeIs scrubControlCode command params && scrubAction params == n

/-- R143: the COMMAND value is SCRUB_CONTROL with a code that names no action. -/
def actionUnknown (command : Word) (params : Table Word 6) : Bool :=
  codeIs scrubControlCode command params && decide (5 < scrubAction params)

/-- The command codes of the chapter "Register window, service framing and data layouts". -/
def commandCodes : List Nat :=
  [1, 2, 3, 4, 5] ++ [16, 17, 18, 19, 20, 21, 22] ++ [32, 33, 34, 35, 36, 37] ++ [48, 49, 50] ++ [64, 65, 66, 67] ++
    [80, 81, 82, 83]

/-- R166: the COMMAND value names no command. -/
def namesNone (command : Word) (_params : Table Word 6) : Bool := !commandCodes.contains command.toNat

/-- R161: a COMMAND write to a mailbox. -/
def Mailbox.writeCommand (m : Mailbox) (v : Word) : Mailbox :=
  if m.state = .empty ∨ m.state = .done then
    { m with command := v, result := pages [] [] [], code := .none, page := 0, state := .pending }
  else { m with collision := true }

/-- R162: a PARAM write to a mailbox. -/
def Mailbox.writeParam (m : Mailbox) (k : Fin 6) (v : Word) : Mailbox :=
  if m.state = .empty ∨ m.state = .done then { m with params := m.params.set k v }
  else { m with collision := true }

/-- R162: a write to the mailbox status register. -/
def Mailbox.writeStatus (m : Mailbox) (v : Word) : Mailbox :=
  { m with
    page := Fin.ofNat 4 (field v 9 8)
    collision := if v.getLsbD 16 then false else m.collision }

/-- R163: the word of a RESULT register in the selected page; a page beyond those written reads as 0. -/
def Mailbox.resultWord (m : Mailbox) (k : Fin 6) : Word :=
  match finOf 3 m.page.val with
  | some p => (m.result.get p).get k
  | none => 0

/-- R163: the side effect of a read of RESULT0. -/
def Mailbox.readResult0 (m : Mailbox) : Mailbox := if m.state = .done then { m with state := .empty } else m

end Sys2Proof.Machine
end

