-- ==== Sys2Proof/Machine/CetCommands.lean ====
section
/-! DEFINITION. The commands on the CET (R33 to R39) and START_VERIFY (R150). -/

namespace Sys2Proof.Machine

/-- R33: the generation count as a result word. -/
def State.generationWord (s : State) : Word := s.cet.generation.setWidth 32

/-- R33: a command whose parameter is a CET index; an index above 127 is refused with BAD_PARAM. -/
def withCetIndex (s : State) (w : Word) (f : CetIdx → State × Answer) : State × Answer :=
  match finOf 128 (indexParam w) with
  | none => (s, refusal .badParam)
  | some i => f i

/-- R33, R36, R38, R39, R150: a command on a valid entry; a free entry is refused with NOT_FOUND. -/
def withCetEntry (s : State) (w : Word) (f : CetIdx → CetEntry → State × Answer) : State × Answer :=
  withCetIndex s w (fun i =>
    match s.entry i with
    | none => (s, refusal .notFound)
    | some e => f i e)

/-- A CET command completes with OK and the generation count as it stands after its effect (R33). -/
def State.okGeneration (s : State) : State × Answer := (s, okWords [s.generationWord])

/-- READ_CET (R34). -/
def bodyReadCet : Body := fun _ ps s =>
  withCetIndex s (ps.get 0) (fun i =>
    (s, .done .ok (pages (cetPage0 (s.entry i) s.cet.generation) (cetPage1 (s.entry i)) [])))

/-- FIND_CET (R35). A location outside the channel's geometry matches no entry, whatever its key. DESIGN CHOICE (log entry 20): a
completion with NOT_FOUND returns result words 0, and no generation count. -/
def bodyFindCet : Body := fun _ ps s =>
  match locParam (ps.get 0) (ps.get 1) with
  | none => (s, refusal .badParam)
  | some l =>
    if l.within (s.geometry l.channel) then
      match s.findKey (s.cet.policy.granularity.reduce l) with
      | none => (s, refusal .notFound)
      | some i => (s, okWords [num i.val, s.generationWord])
    else (s, refusal .notFound)

/-- CLEAR_CET_ENTRY (R36). -/
def bodyClearCetEntry : Body := fun _ ps s =>
  withCetEntry s (ps.get 0) (fun i _ => (s.freeEntry i (some .cleared)).okGeneration)

/-- CLEAR_CET_ALL (R37). -/
def bodyClearCetAll : Body := fun _ _ s =>
  let t := s.freeAll s.validIndices (some .cleared)
  (t, okWords [num s.validIndices.length, t.generationWord])

/-- PIN_CET (R38). -/
def bodyPinCet : Body := fun _ ps s =>
  withCetEntry s (ps.get 0) (fun i e =>
    if e.pinned then s.okGeneration
    else if Config.pinLimit ≤ s.cet.pinnedCount then (s, refusal .limit)
    else (s.modEntry i (fun e => { e with pinned := true })).okGeneration)

/-- UNPIN_CET (R39). -/
def bodyUnpinCet : Body := fun _ ps s =>
  withCetEntry s (ps.get 0) (fun i _ => (s.modEntry i (fun e => { e with pinned := false })).okGeneration)

/-- START_VERIFY (R150): the status returned is the one that stands after the command. -/
def bodyStartVerify : Body := fun _ ps s =>
  withCetEntry s (ps.get 0) (fun i e =>
    if e.status = .idle then
      if s.verify.jobs.length < Config.verifySize then
        let t := s.createJob i e.key.channel
        (t, okWords [num (((t.entry i).map (fun e => e.status.code)).getD 0), num t.verify.jobs.length, t.generationWord])
      else (s, refusal .full)
    else (s, refusal .stateConflict))

def execReadCet (s : State) : Host.Outcome State Fault Refusal :=
  s.whileRunning (fun s => s.engineTake (codeIs 16) .any bodyReadCet)

def execFindCet (s : State) : Host.Outcome State Fault Refusal :=
  s.whileRunning (fun s => s.engineTake (codeIs 17) .any bodyFindCet)

def execClearCetEntry (s : State) : Host.Outcome State Fault Refusal :=
  s.whileRunning (fun s => s.engineTake (codeIs 18) .any bodyClearCetEntry)

def execClearCetAll (s : State) : Host.Outcome State Fault Refusal :=
  s.whileRunning (fun s => s.engineTake (codeIs 19) .any bodyClearCetAll)

def execPinCet (s : State) : Host.Outcome State Fault Refusal :=
  s.whileRunning (fun s => s.engineTake (codeIs 20) .any bodyPinCet)

def execUnpinCet (s : State) : Host.Outcome State Fault Refusal :=
  s.whileRunning (fun s => s.engineTake (codeIs 21) .any bodyUnpinCet)

def execStartVerify (s : State) : Host.Outcome State Fault Refusal :=
  s.whileRunning (fun s => s.engineTake (codeIs 22) .any bodyStartVerify)

/-- LEAK_EXPIRY (R29): when the leak timer has run out, the table leaks and the timer starts again (R17). -/
def execLeakExpiry (s : State) : Host.Outcome State Fault Refusal :=
  s.whileRunning (fun s => if s.cet.leakTimer.expired then s.leakTable.startLeakTimer else s)

end Sys2Proof.Machine
end

