-- ==== Sys2Proof/Machine/Clock.lean ====
section
/-! DEFINITION. The event clock, the pacing base and the timers that count on them (R11, R12). -/

namespace Sys2Proof.Machine

/-- R12: the reply timers and the hold ceiling timer of a scrub context are lowered by a millisecond. -/
def Scrub.lowerMs (c : Scrub) : Scrub :=
  { c with
    tags := c.tags.map (fun q => q.map (fun q => { q with timer := q.timer - 1 }))
    ceilingTimer := c.ceilingTimer.lower }

/-- R12: the pacing timer of a scrub context is lowered by one unit. -/
def Scrub.lowerPacing (c : Scrub) : Scrub := { c with pacingTimer := c.pacingTimer.lower }

/-- R12: the sync attempt timer of a link is lowered by a millisecond. -/
def Link.lowerMs (l : Link) : Link := { l with attemptTimer := l.attemptTimer.lower }

/-- R12: every timer that counts milliseconds is lowered by one. -/
def State.lowerMs (s : State) : State :=
  (((s.setCet { s.cet with leakTimer := s.cet.leakTimer.lower }).setUel
    { s.uel with records := s.uel.records.map (fun r => { r with window := r.window.lower }) }).setLinks
    (s.links.map Link.lowerMs)).setScrubs (s.scrubs.map Scrub.lowerMs)

/-- PACING_BASE_TICK (R12): every timer in units of 10 µs is lowered, and the tick is counted toward the event clock. -/
def execPacingBaseTick (s : State) : Host.Outcome State Fault Refusal :=
  s.whileRunning (fun s =>
    (s.setScrubs (s.scrubs.map Scrub.lowerPacing)).setClock { s.clock with ticks := s.clock.ticks + 1 })

/-- EVENT_CLOCK_ADVANCE (R11): once a hundred ticks have been counted, the event clock advances by one, wrapping to 0, and every
millisecond timer is lowered. -/
def execEventClockAdvance (s : State) : Host.Outcome State Fault Refusal :=
  s.whileRunning (fun s =>
    if Config.ticksPerMs ≤ s.clock.ticks then
      s.lowerMs.setClock ⟨s.clock.time + 1, s.clock.ticks - Config.ticksPerMs⟩
    else s)

end Sys2Proof.Machine
end

