-- ==== Sys2Proof/Machine/LinkCommands.lean ====
section
/-! DEFINITION. The link commands and the events of the report links: arrivals, the sync attempt expiry and the
transmitter (R104 to R123). -/

namespace Sys2Proof.Machine

/-- R109, R121, R122: a command whose parameter is a channel; a channel above 7 is refused with BAD_PARAM. -/
def withChannel (s : State) (w : Word) (f : Chan → State × Answer) : State × Answer :=
  match chanParam w with
  | none => (s, refusal .badParam)
  | some ch => f ch

/-- R109, R122: the new link state as the result. -/
def State.okLinkState (s : State) (ch : Chan) : State × Answer := (s, okWords [num (s.link ch).state.code])

/-- R123 test 4, R9: every valid CET entry and every retirement range of a channel is compatible with a new geometry. -/
def State.compatible (s : State) (ch : Chan) (g : Geometry) : Bool :=
  s.cet.entries.cells.all (fun e =>
    match e with
    | none => true
    | some e => e.key.channel != ch || e.compatible g) &&
  s.retire.entries.cells.all (fun e =>
    match e with
    | none => true
    | some e => e.range.channel != ch || e.range.compatible (s.geometry ch) g)

/-- R142: a cursor that a new geometry leaves outside becomes rank 0, bank 0, row 0. -/
def Scrub.fitCursor (c : Scrub) (g : Geometry) : Scrub :=
  if g.admits c.cursor.rank c.cursor.bank c.cursor.row then c else { c with cursor := ⟨0, 0, 0⟩ }

/-- CONFIGURE_CHANNEL (R123), with its tests in order. -/
def bodyConfigureChannel : Body := fun _ ps s =>
  withChannel s (ps.get 0) (fun ch =>
    let g : Geometry := ⟨(ps.get 1).toNat, (ps.get 2).toNat, (ps.get 3).toNat⟩
    if !g.allowed then (s, refusal .badParam)
    else if (s.link ch).state ≠ .down then (s, refusal .stateConflict)
    else if !s.compatible ch g then (s, refusal .stateConflict)
    else ((s.modLink ch (fun l => { l with geometry := g })).modScrub ch (fun c => c.fitCursor g), okWords []))

/-- LINK_ENABLE (R109). -/
def bodyLinkEnable : Body := fun _ ps s =>
  withChannel s (ps.get 0) (fun ch =>
    if (s.link ch).state = .down then (s.enterSyncing ch).okLinkState ch else (s, refusal .stateConflict))

/-- R121 steps 1 to 4: the link goes DOWN. As in a departure from ACTIVE, the link state changes before the verify queue acts
(log entry 6). -/
def State.goDown (s : State) (ch : Chan) : State :=
  let down := ((s.setLinkState ch .down).modLink ch (fun l =>
    { l.dropCredits with attempts := 0, attemptTimer := none })).modTx ch (fun _ => Transmitter.cut)
  (down.abandonRequests ch none).abortRunningOn ch

/-- R86, R121 step 5: every report in the channel's queue is discarded and counted. -/
def State.discardQueue (s : State) (ch : Chan) : State :=
  (s.modCounters ch (fun c => { c with discarded := satAdd c.discarded (s.queued ch) })).setQueues (s.queues.set ch [])

/-- LINK_DISABLE (R121): the result is the number of reports discarded. -/
def bodyLinkDisable : Body := fun _ ps s =>
  withChannel s (ps.get 0) (fun ch =>
    if (s.link ch).state = .down then (s, okWords [0])
    else ((s.goDown ch).discardQueue ch, okWords [num (s.queued ch)]))

/-- RESYNC_LINK (R122). -/
def bodyResyncLink : Body := fun _ ps s =>
  withChannel s (ps.get 0) (fun ch =>
    if (s.link ch).state = .active ∨ (s.link ch).state = .failed then (s.enterSyncing ch).okLinkState ch
    else (s, refusal .stateConflict))

def execConfigureChannel (s : State) : Host.Outcome State Fault Refusal :=
  s.whileRunning (fun s => s.engineTake (codeIs 1) .any bodyConfigureChannel)

def execLinkEnable (s : State) : Host.Outcome State Fault Refusal :=
  s.whileRunning (fun s => s.engineTake (codeIs 2) .any bodyLinkEnable)

def execLinkDisable (s : State) : Host.Outcome State Fault Refusal :=
  s.whileRunning (fun s => s.engineTake (codeIs 3) .any bodyLinkDisable)

def execResyncLink (s : State) : Host.Outcome State Fault Refusal :=
  s.whileRunning (fun s => s.engineTake (codeIs 4) .any bodyResyncLink)

/-- ERROR (R117): an ERROR frame arrives. -/
def execError (ch : Chan) (seq : BitVec 8) (r : ErrorReport) (s : State) : Host.Outcome State Fault Refusal :=
  s.whileRunning (fun s => s.arrive ch seq (fun t => (t.accept ch).joinQueue ch (.error r)))

/-- SCRUB_REPLY (R117): a SCRUB_REPLY frame arrives. -/
def execScrubReply (ch : Chan) (seq : BitVec 8) (r : ScrubReply) (s : State) : Host.Outcome State Fault Refusal :=
  s.whileRunning (fun s => s.arrive ch seq (fun t => (t.accept ch).joinQueue ch (.reply r)))

/-- HOLD (R117, R138): a HOLD frame arrives. -/
def execHold (ch : Chan) (seq : BitVec 8) (s : State) : Host.Outcome State Fault Refusal :=
  s.whileRunning (fun s => s.arrive ch seq (fun t => (t.accept ch).modScrub ch Scrub.takeHold))

/-- RESUME (R117, R140): a RESUME frame arrives. -/
def execResume (ch : Chan) (seq : BitVec 8) (s : State) : Host.Outcome State Fault Refusal :=
  s.whileRunning (fun s => s.arrive ch seq (fun t => (t.accept ch).modScrub ch Scrub.takeResume))

/-- SYNC (R112, R119): a SYNC frame arrives. -/
def execSync (ch : Chan) (seq : BitVec 8) (s : State) : Host.Outcome State Fault Refusal :=
  s.whileRunning (fun s => s.arriveSync ch seq)

/-- UNKNOWN_KIND_FRAME (R116): a frame of unknown kind arrives. A kind that is known makes another row of the table. -/
def execUnknownKindFrame (ch : Chan) (seq : BitVec 8) (kind : Byte) (s : State) : Host.Outcome State Fault Refusal :=
  if upstreamKind kind then .refused .illFormed
  else s.whileRunning (fun s => s.arrive ch seq (fun t => t.modCounters ch (fun c => { c with malformed := satInc c.malformed })))

/-- FRAME_CHECK_FAILURE (R108, R114): a frame arrives that fails the check. -/
def execFrameCheckFailure (ch : Chan) (s : State) : Host.Outcome State Fault Refusal :=
  s.whileRunning (fun s => s.arriveFailing ch)

/-- SYNC_ATTEMPT_EXPIRY (R111): when the link is SYNCING and its attempt timer has run out, the expiry is taken. -/
def execSyncAttemptExpiry (ch : Chan) (s : State) : Host.Outcome State Fault Refusal :=
  s.whileRunning (fun s =>
    if (s.link ch).state = .syncing ∧ (s.link ch).attemptTimer.expired then s.attemptExpiry ch else s)

/-- FRAME_TRANSMISSION (R104): the transmitter begins its next waiting frame. In DOWN it sends nothing. -/
def execFrameTransmission (ch : Chan) (s : State) : Host.Outcome State Fault Refusal :=
  s.whileRunning (fun s => if (s.link ch).state = .down then s else s.modTx ch Transmitter.begin)

/-- FRAME_TRANSMISSION_END (R104): the transmitter finishes the frame it is transmitting. -/
def execFrameTransmissionEnd (ch : Chan) (s : State) : Host.Outcome State Fault Refusal :=
  s.whileRunning (fun s => s.modTx ch Transmitter.finish)

end Sys2Proof.Machine
end

