-- ==== Sys2Proof/Machine/EngineCommands.lean ====
section
/-! DEFINITION. The commands owned by the engine and by no other block: BAD_COMMAND, SET_POLICY, READ_COUNTERS, INJECT_REPORT,
READ_STATUS and the four service-only commands (R87, R166, R169 to R176). -/

namespace Sys2Proof.Machine

/-- BAD_COMMAND (R166). -/
def bodyBadCommand : Body := fun _ _ s => (s, refusal .badCommand)

/-- The values that SET_POLICY carries, as the layout of R188 places them in the parameter words. -/
structure PolicyWords where
  mask          : Word
  granularity   : Nat
  threshold     : Nat
  leakInterval  : Nat
  autoVerify    : Nat
  proposeMode   : Nat
  reads         : Nat
  persist       : Nat
  arbiter       : Nat
  batch         : Nat
  systemWindow  : Nat
  serviceWindow : Nat
  fatalOnEsc    : Nat
  fatalOnOvf    : Nat
  proposeOnUe   : Nat
deriving DecidableEq, Repr

/-- R188: the words of a SET_POLICY. -/
def policyWords (ps : Table Word 6) : PolicyWords where
  mask          := ps.get 0
  granularity   := field (ps.get 1) 1 0
  threshold     := field (ps.get 1) 23 8
  leakInterval  := (ps.get 2).toNat
  autoVerify    := field (ps.get 1) 3 2
  proposeMode   := field (ps.get 1) 5 4
  reads         := field (ps.get 3) 7 0
  persist       := field (ps.get 3) 15 8
  arbiter       := field (ps.get 3) 17 16
  batch         := field (ps.get 3) 27 24
  systemWindow  := (ps.get 4).toNat
  serviceWindow := field (ps.get 5) 19 0
  fatalOnEsc    := field (ps.get 5) 21 20
  fatalOnOvf    := field (ps.get 5) 23 22
  proposeOnUe   := field (ps.get 5) 25 24

/-- R169: the mask names the field of a position. -/
def PolicyWords.carries (w : PolicyWords) (n : Nat) : Bool := w.mask.getLsbD n

/-- R169: the mask names a position above 13. -/
def PolicyWords.namesUnknown (w : PolicyWords) : Bool := decide (2 ^ 14 ≤ w.mask.toNat)

/-- BAD_PARAM when a test fails. -/
def badUnless (b : Bool) : Option ResultCode := if b then none else some .badParam

/-- R149: the reads total R that the verify queue would hold after the command. -/
def PolicyWords.readsAfter (w : PolicyWords) (s : State) : Nat := if w.carries 5 then w.reads else s.verify.reads

/-- R16, R68, R88, R107, R149: the refusal of the field of a position, by its owner's rule; `none` when it is accepted. -/
def PolicyWords.refuses (w : PolicyWords) (s : State) (n : Nat) : Option ResultCode :=
  match n with
  | 0 =>
    match granularityOfCode w.granularity with
    | none => some .badParam
    | some g => if g ≠ s.cet.policy.granularity ∧ s.cet.occupancy ≠ 0 then some .stateConflict else none
  | 1 => badUnless (decide (1 ≤ w.threshold ∧ w.threshold ≤ 255))
  | 2 => badUnless (decide (w.leakInterval ≤ 65535))
  | 3 => badUnless (boolOfCode w.autoVerify).isSome
  | 4 => badUnless (proposeModeOfCode w.proposeMode).isSome
  | 5 => badUnless (decide (1 ≤ w.reads ∧ w.reads ≤ 15) && (w.carries 6 || decide (s.verify.persist ≤ w.reads)))
  | 6 => badUnless (decide (1 ≤ w.persist ∧ w.persist ≤ w.readsAfter s))
  | 7 => badUnless (arbiterModeOfCode w.arbiter).isSome
  | 8 => badUnless (decide (1 ≤ w.batch ∧ w.batch ≤ 6))
  | 9 => badUnless (decide (w.systemWindow ≤ 65535))
  | 10 => badUnless (decide (w.serviceWindow ≤ 65535))
  | 11 => badUnless (boolOfCode w.fatalOnEsc).isSome
  | 12 => badUnless (boolOfCode w.fatalOnOvf).isSome
  | 13 => badUnless (boolOfCode w.proposeOnUe).isSome
  | _ => none

/-- R169: the refusal of the field of a position, when the mask names it. -/
def PolicyWords.refusedAt (w : PolicyWords) (s : State) (n : Nat) : Option ResultCode :=
  if w.carries n then w.refuses s n else none

/-- R169: the first refused field in order of position, with its refusal. -/
def PolicyWords.firstRefused (w : PolicyWords) (s : State) : Option (Nat × ResultCode) :=
  (List.range 14).findSome? (fun n => (w.refusedAt s n).map (fun c => (n, c)))

/-- A setting that takes a new value when its field is carried. -/
def PolicyWords.choose {α : Type} (w : PolicyWords) (n : Nat) (new : Option α) (old : α) : α :=
  if w.carries n then new.getD old else old

/-- R15: the CET policy after an accepted SET_POLICY. -/
def PolicyWords.cetPolicy (w : PolicyWords) (p : CetPolicy) : CetPolicy where
  granularity  := w.choose 0 (granularityOfCode w.granularity) p.granularity
  threshold    := w.choose 1 (some w.threshold) p.threshold
  leakInterval := w.choose 2 (some w.leakInterval) p.leakInterval
  autoVerify   := w.choose 3 (boolOfCode w.autoVerify) p.autoVerify
  proposeMode  := w.choose 4 (proposeModeOfCode w.proposeMode) p.proposeMode

/-- R68: the UEL policy after an accepted SET_POLICY. -/
def PolicyWords.uelPolicy (w : PolicyWords) (p : UelPolicy) : UelPolicy where
  systemWindow      := w.choose 9 (some w.systemWindow) p.systemWindow
  serviceWindow     := w.choose 10 (some w.serviceWindow) p.serviceWindow
  fatalOnEscalation := w.choose 11 (boolOfCode w.fatalOnEsc) p.fatalOnEscalation
  fatalOnOverflow   := w.choose 12 (boolOfCode w.fatalOnOvf) p.fatalOnOverflow
  proposeOnUe       := w.choose 13 (boolOfCode w.proposeOnUe) p.proposeOnUe

/-- R169: every named field takes its new value; the leak timer starts again when the leak interval is carried (R17). -/
def PolicyWords.apply (w : PolicyWords) (s : State) : State :=
  let policies := ((((s.setCet { s.cet with policy := w.cetPolicy s.cet.policy }).setUel
    { s.uel with policy := w.uelPolicy s.uel.policy }).setVerify
    { s.verify with
      reads := w.choose 5 (some w.reads) s.verify.reads
      persist := w.choose 6 (some w.persist) s.verify.persist }).setIntake
    { s.intake with mode := w.choose 7 (arbiterModeOfCode w.arbiter) s.intake.mode }).setBatch
    (w.choose 8 (some w.batch) s.batch)
  if w.carries 2 then policies.startLeakTimer else policies

/-- SET_POLICY (R169): RESULT0 holds the mask applied and RESULT1 the refused position, or 31. -/
def bodySetPolicy : Body := fun _ ps s =>
  let w := policyWords ps
  if w.namesUnknown then (s, .done .badParam (pages [0, num 31] [] []))
  else
    match w.firstRefused s with
    | some (n, c) => (s, .done c (pages [0, num n] [] []))
    | none => (w.apply s, okWords [w.mask, num 31])

/-- R170: every counter of pages 0 and 1 becomes 0. -/
def State.clearCounters (s : State) (ch : Chan) : State :=
  ((((s.modCounters ch (fun _ => ⟨0, 0, 0, 0, 0, 0, 0, 0, 0⟩)).modClassifier ch (fun _ => ⟨0, 0⟩)).modScrub ch
    (fun c => { c with counters := ⟨0, 0, 0⟩ })).setCet
    { s.cet with lost := 0, replaced := 0, verifyQueueFull := 0 }).setRetire { s.retire with merged := 0, refused := 0 }

/-- READ_COUNTERS (R170). -/
def bodyReadCounters : Body := fun _ ps s =>
  withChannel s (ps.get 0) (fun ch =>
    match boolOfCode (ps.get 1).toNat with
    | none => (s, refusal .badParam)
    | some clear =>
      (if clear then s.clearCounters ch else s,
        .done .ok (pages (linkPage (s.link ch).counters)
          (tablePage (s.classifier.get ch) (s.scrub ch).counters s.cet s.retire) (scrubPage (s.scrub ch)))))

/-- INJECT_REPORT (R87). -/
def bodyInjectReport : Body := fun _ ps s =>
  match locParam (ps.get 0) (ps.get 1), errClassOfCode (ps.get 2).toNat with
  | some l, some c =>
    match s.intake.slot with
    | some _ => (s, refusal .busy)
    | none => (s.setIntake { s.intake with slot := some ⟨l, c⟩ }, okWords [])
  | _, _ => (s, refusal .badParam)

/-- READ_STATUS (R171). -/
def bodyReadStatus : Body := fun _ _ s => (s, okWords (statusPage s))

/-- SET_AUTHORITY (R172): the previous and the new authority. -/
def bodySetAuthority : Body := fun _ ps s =>
  match authorityOfCode (ps.get 0).toNat with
  | none => (s, refusal .badParam)
  | some a => (s.setEngine { s.engine with authority := a }, okWords [num s.engine.authority.code, num a.code])

/-- SET_SERVICE_FIRST (R173): the previous and the new setting. -/
def bodySetServiceFirst : Body := fun _ ps s =>
  match boolOfCode (ps.get 0).toNat with
  | none => (s, refusal .badParam)
  | some b => (s.setEngine { s.engine with serviceFirst := b }, okWords [num s.engine.serviceFirst.toNat, num b.toNat])

/-- CLEAR_FATAL (R174): whether the latch was set. -/
def bodyClearFatal : Body := fun _ _ s => (s.clearLatch, okWords [num s.events.fatalLatch.toNat])

/-- R176 step 1, R101: the intake queues and the injection slot are emptied. -/
def State.emptyIntake (s : State) : State :=
  (s.setQueues (s.queues.map (fun _ => []))).setIntake { s.intake with slot := none, lastServed := .slot }

/-- R176 step 4, R126: a link that is not DOWN enters SYNCING. -/
def State.resyncAtReset (s : State) (ch : Chan) : State := if (s.link ch).state = .down then s else s.enterSyncing ch

/-- R176: the Soft reset, step by step in the rule's order. -/
def State.softReset (s : State) : State :=
  let emptied := s.emptyIntake.emptyVerify
  let abandoned := emptied.setScrubs (emptied.scrubs.map Scrub.softReset)
  (List.finRange 8).foldl State.resyncAtReset abandoned

/-- ENGINE_RESET (R175). -/
def bodyEngineReset : Body := fun _ _ s => (s.softReset, okWords [])

def execBadCommand (s : State) : Host.Outcome State Fault Refusal :=
  s.whileRunning (fun s => s.engineTake namesNone .any bodyBadCommand)

def execSetPolicy (s : State) : Host.Outcome State Fault Refusal :=
  s.whileRunning (fun s => s.engineTake (codeIs 5) .any bodySetPolicy)

def execReadCounters (s : State) : Host.Outcome State Fault Refusal :=
  s.whileRunning (fun s => s.engineTake (codeIs 65) .any bodyReadCounters)

def execInjectReport (s : State) : Host.Outcome State Fault Refusal :=
  s.whileRunning (fun s => s.engineTake (codeIs 66) .any bodyInjectReport)

def execReadStatus (s : State) : Host.Outcome State Fault Refusal :=
  s.whileRunning (fun s => s.engineTake (codeIs 67) .any bodyReadStatus)

def execSetAuthority (s : State) : Host.Outcome State Fault Refusal :=
  s.whileRunning (fun s => s.engineTake (codeIs 80) .serviceOnly bodySetAuthority)

def execSetServiceFirst (s : State) : Host.Outcome State Fault Refusal :=
  s.whileRunning (fun s => s.engineTake (codeIs 81) .serviceOnly bodySetServiceFirst)

def execClearFatal (s : State) : Host.Outcome State Fault Refusal :=
  s.whileRunning (fun s => s.engineTake (codeIs 82) .serviceOnly bodyClearFatal)

def execEngineReset (s : State) : Host.Outcome State Fault Refusal :=
  s.whileRunning (fun s => s.engineTake (codeIs 83) .serviceOnly bodyEngineReset)

end Sys2Proof.Machine
end

