-- ==== Sys2Proof/Machine/FullReset.lean ====
section
/-! DEFINITION. Full reset and its end (R184). -/

namespace Sys2Proof.Machine

/-- FULL_RESET (R184): the state of every block holds its Full reset values, from every state. -/
def execFullReset (s : State) : Host.Outcome State Fault Refusal := .next (State.held.setPending s.pending)

/-- FULL_RESET_END (R184): at the rising edge of RST_N the timers may run, and the leak timer starts with the default interval (R17).
While RST_N is released there is no rising edge. -/
def execFullResetEnd (s : State) : Host.Outcome State Fault Refusal :=
  .next (if s.rst then (s.setRst false).startLeakTimer else s)

end Sys2Proof.Machine
end

