-- ==== Sys2Proof/Machine/Registers.lean ====
section
/-! DEFINITION. The register window: what each index reads as from each port, the summaries, and the meanings of the register
writes and of the read of RESULT0 (R161 to R163, R180, R181, R185). -/

namespace Sys2Proof.Machine

/-- R185: the identification register. -/
def identification : Word := pack [(31, 16, Config.partCode), (7, 0, Config.revision)]

/-- R185: the mailbox status register. -/
def Mailbox.status (m : Mailbox) : Word :=
  pack [(1, 0, m.state.code), flagBit 2 m.collision, (7, 4, m.code.code), (9, 8, m.page.val)]

/-- R107, R185: the link summary. -/
def State.linkSummary (s : State) : Word :=
  pack ((List.finRange 8).map (fun ch => (2 * ch.val + 1, 2 * ch.val, (s.link ch).state.code)))

/-- R14, R185: the CET summary. -/
def State.cetSummary (s : State) : Word :=
  pack [(7, 0, s.cet.occupancy), (14, 8, s.cet.pinnedCount), (31, 16, s.cet.generation.toNat)]

/-- R73, R185: the UEL summary. -/
def State.uelSummary (s : State) : Word :=
  pack [(4, 0, s.uel.records.length), (15, 8, ((s.uel.records.head?).map (fun r => r.id.toNat)).getD 0),
    (20, 16, s.uel.countIn .opened), (25, 21, s.uel.countIn .handedOver), (30, 26, s.uel.countIn .escalated)]

/-- R43, R185: the retirement summary. -/
def State.retireSummary (s : State) : Word :=
  pack [(5, 0, s.retire.countIn .proposed), (13, 8, s.retire.countIn .confirmed)]

/-- R52, R173, R185: the authority register as the Service port reads it. -/
def State.authorityWord (s : State) : Word :=
  pack [(1, 0, s.engine.authority.code), flagBit 8 s.engine.serviceFirst]

/-- R183, R185: the FATAL status register as the Service port reads it. -/
def State.fatalWord (s : State) : Word :=
  pack [flagBit 0 s.events.fatalLatch, flagBit 1 s.events.escalationCause, flagBit 2 s.events.overflowCause]

/-- R185: the value that a port reads at a register index. -/
def State.readRegister (s : State) (p : Port) (index : Nat) : Word :=
  match index with
  | 0 => identification
  | 1 => s.now
  | 2 => (s.mail p).status
  | 3 => (s.mail p).command
  | 4 => (s.mail p).params.get 0
  | 5 => (s.mail p).params.get 1
  | 6 => (s.mail p).params.get 2
  | 7 => (s.mail p).params.get 3
  | 8 => (s.mail p).params.get 4
  | 9 => (s.mail p).params.get 5
  | 10 => (s.mail p).resultWord 0
  | 11 => (s.mail p).resultWord 1
  | 12 => (s.mail p).resultWord 2
  | 13 => (s.mail p).resultWord 3
  | 14 => (s.mail p).resultWord 4
  | 15 => (s.mail p).resultWord 5
  | 16 => s.events.flags.setWidth 32
  | 17 => 0
  | 18 => (s.lineMask p).setWidth 32
  | 19 => s.linkSummary
  | 20 => s.cetSummary
  | 21 => s.uelSummary
  | 22 => s.retireSummary
  | 48 => match p with
    | .system => 0
    | .service => s.authorityWord
  | 49 => match p with
    | .system => 0
    | .service => s.fatalWord
  | _ => 0

/-- The value driven onto a port by a read. -/
def State.drive (s : State) (p : Port) (v : Word) : State :=
  match p with
  | .system => s.setPortData { s.portData with system := v }
  | .service => s.setPortData { s.portData with service := v }

/-- COMMAND_WRITE (R161). -/
def execCommandWrite (p : Port) (v : Word) (s : State) : Host.Outcome State Fault Refusal :=
  s.whileRunning (fun s => s.setMail p ((s.mail p).writeCommand v))

/-- PARAM_WRITE (R162). -/
def execParamWrite (p : Port) (k : Fin 6) (v : Word) (s : State) : Host.Outcome State Fault Refusal :=
  s.whileRunning (fun s => s.setMail p ((s.mail p).writeParam k v))

/-- MAILBOX_STATUS_WRITE (R162). -/
def execMailboxStatusWrite (p : Port) (v : Word) (s : State) : Host.Outcome State Fault Refusal :=
  s.whileRunning (fun s => s.setMail p ((s.mail p).writeStatus v))

/-- RESULT0_READ (R163): the selected word is driven onto the port; at the read's side-effect edge a DONE mailbox becomes EMPTY.
A read that does not reach the edge has no side effect (R186). -/
def execResult0Read (p : Port) (edge : Bool) (s : State) : Host.Outcome State Fault Refusal :=
  s.whileRunning (fun s =>
    let driven := s.drive p (s.readRegister p 10)
    if edge then driven.setMail p (s.mail p).readResult0 else driven)

/-- EVENT_CLEAR_WRITE (R180), from either port alike. -/
def execEventClearWrite (_p : Port) (v : Word) (s : State) : Host.Outcome State Fault Refusal :=
  s.whileRunning (fun s => s.clearFlags v)

/-- LINE_MASK_WRITE (R181). -/
def execLineMaskWrite (p : Port) (v : Word) (s : State) : Host.Outcome State Fault Refusal :=
  s.whileRunning (fun s => s.setLineMask p v)

/-- REGISTER_WRITE_IGNORED (R185). An index that has a write behaviour makes another row of the table. -/
def execRegisterWriteIgnored (_p : Port) (index : Fin 64) (_v : Word) (s : State) : Host.Outcome State Fault Refusal :=
  if writeIgnored index then .next s else .refused .illFormed

end Sys2Proof.Machine
end

