-- ==== Sys2Proof/Machine/RetireCommands.lean ====
section
/-! DEFINITION. The commands on the retirement list and the purge (R52 to R61). -/

namespace Sys2Proof.Machine

/-- R53: a command whose parameter is a list index; an index above 31 is refused with BAD_PARAM. -/
def withRetIndex (s : State) (w : Word) (f : RetIdx → State × Answer) : State × Answer :=
  match finOf 32 (indexParam w) with
  | none => (s, refusal .badParam)
  | some i => f i

/-- R53: a command on a valid entry in the state that it needs: a free entry is refused with NOT_FOUND, and one in the other state
with STATE_CONFLICT. -/
def withRetEntry (s : State) (w : Word) (needs : RetState) (f : RetIdx → RetEntry → State × Answer) : State × Answer :=
  withRetIndex s w (fun i =>
    match s.retire.entries.get i with
    | none => (s, refusal .notFound)
    | some e => if e.state = needs then f i e else (s, refusal .stateConflict))

/-- READ_RETIRE (R58). -/
def bodyReadRetire : Body := fun _ ps s =>
  withRetIndex s (ps.get 0) (fun i =>
    (s, okWords (retirePage (s.retire.entries.get i) (s.retire.countIn .proposed) (s.retire.countIn .confirmed))))

/-- FIND_RETIRE (R58), with the tests of R53. -/
def bodyFindRetire : Body := fun _ ps s =>
  match locParam (ps.get 0) (ps.get 1) with
  | none => (s, refusal .badParam)
  | some l =>
    if l.within (s.geometry l.channel) then
      match s.containing l with
      | none => (s, refusal .notFound)
      | some i => (s, okWords [num i.val, num (((s.retire.entries.get i).map (fun e => e.state.code)).getD 0)])
    else (s, refusal .badParam)

/-- R59: a purge begins for a retirement entry. -/
def State.beginPurge (s : State) (i : RetIdx) : State := s.setEngine { s.engine with purge := some ⟨i, 0, 0⟩ }

/-- R54: the entry that ADD_RETIRE creates. -/
def addedEntry (r : Range) (now : Time) : RetEntry where
  range      := r
  state      := .confirmed
  origin     := .host
  evidence   := none
  suppressed := 0
  created    := now
  confirmed  := some now

/-- ADD_RETIRE (R54), with the tests of R53 in order. -/
def bodyAddRetire : Body := fun _ ps s =>
  match rangeParam (ps.get 0) (ps.get 1) (ps.get 2) with
  | none => (s, refusal .badParam)
  | some r =>
    if r.wellFormed (s.geometry r.channel) then
      match s.overlapping r with
      | some i => (s, .done .overlap (pages [num i.val] [] []))
      | none =>
        match s.freeRetire with
        | none => (s, refusal .full)
        | some i => ((s.setRetEntry i (some (addedEntry r s.now))).beginPurge i, .running)
    else (s, refusal .badParam)

/-- CONFIRM_RETIRE (R55). -/
def bodyConfirmRetire : Body := fun _ ps s =>
  withRetEntry s (ps.get 0) .proposed (fun i e =>
    ((s.setRetEntry i (some { e with state := .confirmed, confirmed := some s.now })).beginPurge i, .running))

/-- R56 step 1: the CET entry that is the evidence of a retirement entry. -/
def RetEntry.cetEvidence (e : RetEntry) : Option CetIdx :=
  match e.evidence with
  | some (.cet i) => some i
  | some (.ue _) => none
  | none => none

/-- REJECT_RETIRE (R56): the evidence entry is freed, the retirement entry becomes free and the links that name it are cleared. The
result says whether a CET entry was freed. -/
def bodyRejectRetire : Body := fun _ ps s =>
  withRetEntry s (ps.get 0) .proposed (fun i e =>
    match e.cetEvidence with
    | some c =>
      let freed := (s.entry c).isSome
      ((((s.freeEntry c (some .cleared)).setRetEntry i none).unlinkAll i), okWords [num freed.toNat])
    | none => ((s.setRetEntry i none).unlinkAll i, okWords [0]))

/-- REMOVE_RETIRE (R57): the result is the suppressed count that the entry held. -/
def bodyRemoveRetire : Body := fun _ ps s =>
  withRetEntry s (ps.get 0) .confirmed (fun i e => ((s.setRetEntry i none).unlinkAll i, okWords [num e.suppressed]))

def execReadRetire (s : State) : Host.Outcome State Fault Refusal :=
  s.whileRunning (fun s => s.engineTake (codeIs 32) .any bodyReadRetire)

def execFindRetire (s : State) : Host.Outcome State Fault Refusal :=
  s.whileRunning (fun s => s.engineTake (codeIs 33) .any bodyFindRetire)

def execAddRetire (s : State) : Host.Outcome State Fault Refusal :=
  s.whileRunning (fun s => s.engineTake (codeIs 34) .authority bodyAddRetire)

def execConfirmRetire (s : State) : Host.Outcome State Fault Refusal :=
  s.whileRunning (fun s => s.engineTake (codeIs 35) .authority bodyConfirmRetire)

def execRejectRetire (s : State) : Host.Outcome State Fault Refusal :=
  s.whileRunning (fun s => s.engineTake (codeIs 36) .authority bodyRejectRetire)

def execRemoveRetire (s : State) : Host.Outcome State Fault Refusal :=
  s.whileRunning (fun s => s.engineTake (codeIs 37) .authority bodyRemoveRetire)

/-- R60: the entry at a CET index is valid and its key lies inside the range that the purge serves. -/
def State.purgeHits (s : State) (serves : RetIdx) (i : CetIdx) : Bool :=
  match s.retire.entries.get serves, s.entry i with
  | some r, some e => e.key.inside r.range (s.geometry e.key.channel)
  | _, _ => false

/-- R60: the visit of a CET index, with the number purged after it. -/
def State.visit (s : State) (g : Purge) (i : CetIdx) : State × Nat :=
  if s.purgeHits g.serves i then (s.freeEntry i (some .retired), g.purged + 1) else (s, g.purged)

/-- R61: the purge ends and the command that began it completes with OK. -/
def State.endPurge (s : State) (g : Purge) (purged : Nat) : State :=
  let ended := s.setEngine { s.engine with purge := none }
  match s.runningPort with
  | some p => ended.complete p .ok (pages [num g.serves.val, num purged] [] [])
  | none => ended

/-- R60, R61: the visit of the purge's next index; after the visit of index 127 the purge ends. -/
def State.purgeStep (s : State) (g : Purge) : State :=
  match finOf 128 g.next with
  | none => s.endPurge g g.purged
  | some i =>
    let (t, purged) := s.visit g i
    if g.next + 1 < 128 then t.setEngine { t.engine with purge := some { g with next := g.next + 1, purged := purged } }
    else t.endPurge g purged

/-- PURGE_VISIT (R60): while a purge is in progress it makes its next visit. -/
def execPurgeVisit (s : State) : Host.Outcome State Fault Refusal :=
  s.whileRunning (fun s =>
    match s.engine.purge with
    | none => s
    | some g => s.purgeStep g)

end Sys2Proof.Machine
end

