-- ==== Sys2Proof/Machine/ScrubCommands.lean ====
section
/-! DEFINITION. The actions of SCRUB_CONTROL and the events of the scrub engine (R129 to R144). -/

namespace Sys2Proof.Machine

/-- R143: a SCRUB_CONTROL on a channel, held in bits 3 to 0 of PARAM0; a channel above 7 is refused with BAD_PARAM. -/
def withScrubChannel (s : State) (w : Word) (f : Chan → State × Answer) : State × Answer :=
  match finOf 8 (field w 3 0) with
  | none => (s, refusal .badParam)
  | some ch => f ch

/-- R144: a SCRUB_CONTROL completes with OK and the scrub state as it stands after the action. -/
def State.okScrub (s : State) (ch : Chan) : State × Answer := (s, okWords (scrubPage (s.scrub ch)))

/-- SCRUB_CONTROL START (R143). -/
def bodyScrubStart : Body := fun _ ps s =>
  withScrubChannel s (ps.get 0) (fun ch =>
    match patrolModeOfCode (ps.get 1).toNat with
    | none => (s, refusal .badParam)
    | some m =>
      if (s.scrub ch).patrol = .stopped then
        (s.modScrub ch (fun c =>
          { c with mode := m, stepDue := true, patrol := if c.holdFlag then .held else .running })).okScrub ch
      else (s, refusal .stateConflict))

/-- SCRUB_CONTROL STOP (R143). -/
def bodyScrubStop : Body := fun _ ps s =>
  withScrubChannel s (ps.get 0) (fun ch => (s.modScrub ch Scrub.stop).okScrub ch)

/-- SCRUB_CONTROL SET_CURSOR (R144): its BAD_PARAM tests come before its STATE_CONFLICT test. -/
def bodySetCursor : Body := fun _ ps s =>
  withScrubChannel s (ps.get 0) (fun ch =>
    match cursorParam (ps.get 1) (ps.get 2) with
    | none => (s, refusal .badParam)
    | some k =>
      if (s.geometry ch).admits k.rank k.bank k.row then
        if (s.scrub ch).patrol = .stopped then (s.modScrub ch (fun c => { c with cursor := k })).okScrub ch
        else (s, refusal .stateConflict)
      else (s, refusal .badParam))

/-- SCRUB_CONTROL SET_PACING (R144). -/
def bodySetPacing : Body := fun _ ps s =>
  withScrubChannel s (ps.get 0) (fun ch =>
    let n := (ps.get 1).toNat
    if 1 ≤ n ∧ n ≤ 65535 then (s.modScrub ch (fun c => { c with pacing := n })).okScrub ch
    else (s, refusal .badParam))

/-- R144: the hold settings take the values carried, and a DRAINING patrol is judged by the new policy in the same event. -/
def Scrub.setHoldPolicy (c : Scrub) (p : HoldPolicy) (segment ceiling : Nat) : Scrub :=
  let d := { c with holdPolicy := p, segment := segment, ceiling := ceiling }
  match p with
  | .immediate => if c.patrol = .draining then { d with patrol := .held } else d
  | .segment => d.segmentTest

/-- SCRUB_CONTROL SET_HOLD_POLICY (R144). -/
def bodySetHoldPolicy : Body := fun _ ps s =>
  withScrubChannel s (ps.get 0) (fun ch =>
    let segment := (ps.get 2).toNat
    let ceiling := (ps.get 3).toNat
    match holdPolicyOfCode (ps.get 1).toNat with
    | none => (s, refusal .badParam)
    | some p =>
      if 1 ≤ segment ∧ segment ≤ 64 ∧ ceiling ≤ 65535 then
        (s.modScrub ch (fun c => c.setHoldPolicy p segment ceiling)).okScrub ch
      else (s, refusal .badParam))

/-- SCRUB_CONTROL SET_TIMEOUT (R144). -/
def bodySetTimeout : Body := fun _ ps s =>
  withScrubChannel s (ps.get 0) (fun ch =>
    let n := (ps.get 1).toNat
    if 1 ≤ n ∧ n ≤ 255 then (s.modScrub ch (fun c => { c with replyTimeout := n })).okScrub ch
    else (s, refusal .badParam))

/-- SCRUB_CONTROL with a code that names no action (R143). -/
def bodyBadAction : Body := fun _ _ s => (s, refusal .badParam)

def execScrubStart (s : State) : Host.Outcome State Fault Refusal :=
  s.whileRunning (fun s => s.engineTake (actionIs 0) .any bodyScrubStart)

def execScrubStop (s : State) : Host.Outcome State Fault Refusal :=
  s.whileRunning (fun s => s.engineTake (actionIs 1) .any bodyScrubStop)

def execSetCursor (s : State) : Host.Outcome State Fault Refusal :=
  s.whileRunning (fun s => s.engineTake (actionIs 2) .any bodySetCursor)

def execSetPacing (s : State) : Host.Outcome State Fault Refusal :=
  s.whileRunning (fun s => s.engineTake (actionIs 3) .any bodySetPacing)

def execSetHoldPolicy (s : State) : Host.Outcome State Fault Refusal :=
  s.whileRunning (fun s => s.engineTake (actionIs 4) .any bodySetHoldPolicy)

def execSetTimeout (s : State) : Host.Outcome State Fault Refusal :=
  s.whileRunning (fun s => s.engineTake (actionIs 5) .any bodySetTimeout)

def execScrubControlBadAction (s : State) : Host.Outcome State Fault Refusal :=
  s.whileRunning (fun s => s.engineTake actionUnknown .any bodyBadAction)

/-- ISSUE_EVENT (R132). -/
def execIssueEvent (ch : Chan) (s : State) : Host.Outcome State Fault Refusal :=
  s.whileRunning (fun s => s.issue ch)

/-- PACING_EXPIRY (R130): when the pacing timer has run out, it is stopped and step due becomes yes. -/
def execPacingExpiry (ch : Chan) (s : State) : Host.Outcome State Fault Refusal :=
  s.whileRunning (fun s =>
    if (s.scrub ch).pacingTimer.expired then s.modScrub ch (fun c => { c with stepDue := true, pacingTimer := none }) else s)

/-- REPLY_TIMEOUT (R136): when the tag is BUSY and its reply timer has run out, the expiry is taken. -/
def execReplyTimeout (ch : Chan) (tag : Tag) (s : State) : Host.Outcome State Fault Refusal :=
  s.whileRunning (fun s =>
    match (s.scrub ch).tags.get tag with
    | none => s
    | some q => if q.timer = 0 then s.replyExpiry ch tag q else s)

/-- HOLD_CEILING_EXPIRY (R140): when the hold ceiling timer has run out, the hold ends and HOLD_OVERRUN is set. -/
def execHoldCeilingExpiry (ch : Chan) (s : State) : Host.Outcome State Fault Refusal :=
  s.whileRunning (fun s =>
    if (s.scrub ch).ceilingTimer.expired then (s.modScrub ch Scrub.release).setFlag .holdOverrun else s)

/-- INTAKE_TAKE (R90). -/
def execIntakeTake (s : State) : Host.Outcome State Fault Refusal :=
  s.whileRunning (fun s => s.take)

end Sys2Proof.Machine
end

