-- ==== Sys2Proof/Machine/UelCommands.lean ====
section
/-! DEFINITION. The commands on the UEL and the expiries of its windows (R74 to R82). -/

namespace Sys2Proof.Machine

/-- R81: the position that READ_UE selects, or its refusal. -/
def State.selectUe (s : State) (selector value : Nat) : Except ResultCode Nat :=
  match selector with
  | 0 =>
    if 15 < value then .error .badParam
    else if value < s.uel.records.length then .ok value else .error .notFound
  | 1 =>
    if 255 < value then .error .badParam
    else
      match s.findUe value with
      | some i => .ok i
      | none => .error .notFound
  | _ => .error .badParam

/-- READ_UE (R81). -/
def bodyReadUe : Body := fun _ ps s =>
  match s.selectUe (ps.get 0).toNat (indexParam (ps.get 1)) with
  | .error c => (s, refusal c)
  | .ok i =>
    match s.ueAt i with
    | none => (s, refusal .notFound)
    | some r => (s, okWords (uePage r i s.uel.records.length))

/-- R76: whether a port may acknowledge a record in a state. -/
def AckState.mayAck (a : AckState) (p : Port) : Bool :=
  match p with
  | .system => true
  | .service => a != .opened

/-- ACK_UE (R76, R77). -/
def bodyAckUe : Body := fun p ps s =>
  let id := indexParam (ps.get 0)
  if 255 < id then (s, refusal .badParam)
  else
    match s.findUe id with
    | none => (s, refusal .notFound)
    | some i =>
      match s.ueAt i with
      | none => (s, refusal .notFound)
      | some r =>
        if r.ack.mayAck p then
          (s.removeUe i, okWords [num id, num r.ack.code, num (s.uel.records.length - 1)])
        else (s, refusal .notPermitted)

/-- READ_UE_OVERFLOW (R82). -/
def bodyReadUeOverflow : Body := fun _ ps s =>
  match boolOfCode (ps.get 0).toNat with
  | none => (s, refusal .badParam)
  | some clear =>
    (if clear then s.setUel { s.uel with overflow := 0, firstLost := none } else s,
      okWords (overflowPage s.uel.overflow s.uel.firstLost))

def execReadUe (s : State) : Host.Outcome State Fault Refusal :=
  s.whileRunning (fun s => s.engineTake (codeIs 48) .any bodyReadUe)

def execAckUe (s : State) : Host.Outcome State Fault Refusal :=
  s.whileRunning (fun s => s.engineTake (codeIs 49) .any bodyAckUe)

def execReadUeOverflow (s : State) : Host.Outcome State Fault Refusal :=
  s.whileRunning (fun s => s.engineTake (codeIs 50) .any bodyReadUeOverflow)

/-- The window of the record at a position has run out in an acknowledge state. -/
def State.windowExpired (s : State) (i : Nat) (a : AckState) : Bool :=
  (s.ueAt i).any (fun r => r.ack == a && r.window.expired)

/-- SYSTEM_WINDOW_EXPIRY (R74): when the window of the OPEN record at the position has run out, the record is handed over. -/
def execSystemWindowExpiry (position : Fin 16) (s : State) : Host.Outcome State Fault Refusal :=
  s.whileRunning (fun s => if s.windowExpired position.val .opened then s.handOver position.val else s)

/-- SERVICE_WINDOW_EXPIRY (R75): when the window of the HANDED_OVER record at the position has run out, the record is escalated. -/
def execServiceWindowExpiry (position : Fin 16) (s : State) : Host.Outcome State Fault Refusal :=
  s.whileRunning (fun s => if s.windowExpired position.val .handedOver then s.escalate position.val else s)

end Sys2Proof.Machine
end

