-- ==== Sys2Proof/Machine/Dispatch.lean ====
section
/-! DEFINITION. One arm for each row of the table. -/

namespace Sys2Proof.Machine

def exec (i : Instr) (s : State) : Host.Outcome State Fault Refusal :=
  match i with
  | .fullReset => Sys2Proof.Machine.execFullReset s
  | .fullResetEnd => Sys2Proof.Machine.execFullResetEnd s
  | .pacingBaseTick => Sys2Proof.Machine.execPacingBaseTick s
  | .eventClockAdvance => Sys2Proof.Machine.execEventClockAdvance s
  | .commandWrite p v => Sys2Proof.Machine.execCommandWrite p v s
  | .paramWrite p k v => Sys2Proof.Machine.execParamWrite p k v s
  | .mailboxStatusWrite p v => Sys2Proof.Machine.execMailboxStatusWrite p v s
  | .result0Read p edge => Sys2Proof.Machine.execResult0Read p edge s
  | .eventClearWrite p v => Sys2Proof.Machine.execEventClearWrite p v s
  | .lineMaskWrite p v => Sys2Proof.Machine.execLineMaskWrite p v s
  | .registerWriteIgnored p index v => Sys2Proof.Machine.execRegisterWriteIgnored p index v s
  | .badCommand => Sys2Proof.Machine.execBadCommand s
  | .configureChannel => Sys2Proof.Machine.execConfigureChannel s
  | .linkEnable => Sys2Proof.Machine.execLinkEnable s
  | .linkDisable => Sys2Proof.Machine.execLinkDisable s
  | .resyncLink => Sys2Proof.Machine.execResyncLink s
  | .setPolicy => Sys2Proof.Machine.execSetPolicy s
  | .readCet => Sys2Proof.Machine.execReadCet s
  | .findCet => Sys2Proof.Machine.execFindCet s
  | .clearCetEntry => Sys2Proof.Machine.execClearCetEntry s
  | .clearCetAll => Sys2Proof.Machine.execClearCetAll s
  | .pinCet => Sys2Proof.Machine.execPinCet s
  | .unpinCet => Sys2Proof.Machine.execUnpinCet s
  | .startVerify => Sys2Proof.Machine.execStartVerify s
  | .readRetire => Sys2Proof.Machine.execReadRetire s
  | .findRetire => Sys2Proof.Machine.execFindRetire s
  | .addRetire => Sys2Proof.Machine.execAddRetire s
  | .confirmRetire => Sys2Proof.Machine.execConfirmRetire s
  | .rejectRetire => Sys2Proof.Machine.execRejectRetire s
  | .removeRetire => Sys2Proof.Machine.execRemoveRetire s
  | .readUe => Sys2Proof.Machine.execReadUe s
  | .ackUe => Sys2Proof.Machine.execAckUe s
  | .readUeOverflow => Sys2Proof.Machine.execReadUeOverflow s
  | .scrubStart => Sys2Proof.Machine.execScrubStart s
  | .scrubStop => Sys2Proof.Machine.execScrubStop s
  | .setCursor => Sys2Proof.Machine.execSetCursor s
  | .setPacing => Sys2Proof.Machine.execSetPacing s
  | .setHoldPolicy => Sys2Proof.Machine.execSetHoldPolicy s
  | .setTimeout => Sys2Proof.Machine.execSetTimeout s
  | .readCounters => Sys2Proof.Machine.execReadCounters s
  | .injectReport => Sys2Proof.Machine.execInjectReport s
  | .readStatus => Sys2Proof.Machine.execReadStatus s
  | .setAuthority => Sys2Proof.Machine.execSetAuthority s
  | .setServiceFirst => Sys2Proof.Machine.execSetServiceFirst s
  | .clearFatal => Sys2Proof.Machine.execClearFatal s
  | .engineReset => Sys2Proof.Machine.execEngineReset s
  | .purgeVisit => Sys2Proof.Machine.execPurgeVisit s
  | .error ch seq report => Sys2Proof.Machine.execError ch seq report s
  | .scrubReply ch seq reply => Sys2Proof.Machine.execScrubReply ch seq reply s
  | .hold ch seq => Sys2Proof.Machine.execHold ch seq s
  | .resume ch seq => Sys2Proof.Machine.execResume ch seq s
  | .sync ch seq => Sys2Proof.Machine.execSync ch seq s
  | .unknownKindFrame ch seq kind => Sys2Proof.Machine.execUnknownKindFrame ch seq kind s
  | .frameCheckFailure ch => Sys2Proof.Machine.execFrameCheckFailure ch s
  | .syncAttemptExpiry ch => Sys2Proof.Machine.execSyncAttemptExpiry ch s
  | .frameTransmission ch => Sys2Proof.Machine.execFrameTransmission ch s
  | .intakeTake => Sys2Proof.Machine.execIntakeTake s
  | .issueEvent ch => Sys2Proof.Machine.execIssueEvent ch s
  | .pacingExpiry ch => Sys2Proof.Machine.execPacingExpiry ch s
  | .replyTimeout ch tag => Sys2Proof.Machine.execReplyTimeout ch tag s
  | .holdCeilingExpiry ch => Sys2Proof.Machine.execHoldCeilingExpiry ch s
  | .systemWindowExpiry position => Sys2Proof.Machine.execSystemWindowExpiry position s
  | .serviceWindowExpiry position => Sys2Proof.Machine.execServiceWindowExpiry position s
  | .leakExpiry => Sys2Proof.Machine.execLeakExpiry s
  | .frameTransmissionEnd ch => Sys2Proof.Machine.execFrameTransmissionEnd ch s
  | .scrubControlBadAction => Sys2Proof.Machine.execScrubControlBadAction s

end Sys2Proof.Machine
end

