-- ==== Sys2Proof/Machine/Frames.lean ====
section
/-! DEFINITION. The 8-byte link frames: the check value, what an upstream frame says to the link receiver, and the bytes of a
downstream frame (R102 to R104, R189). -/

namespace Sys2Proof.Machine

/-- A frame as a lane carries it; byte 0 travels first. -/
abbrev Frame := Table Byte 8

/-- R102: one bit of the CRC-8 with the polynomial x⁸ + x² + x + 1. -/
def crcBit (c : Byte) : Byte := if c.getLsbD 7 then (c <<< 1) ^^^ 7 else c <<< 1

/-- R102: a byte taken into the check value, most significant bit first. -/
def crcByte (c b : Byte) : Byte := Nat.repeat crcBit 8 (c ^^^ b)

/-- R102: the check value of bytes in order, from an initial value of 0. -/
def crc (bytes : List Byte) : Byte := bytes.foldl crcByte 0

/-- R102: byte 7 equals the check value of bytes 0 to 6. -/
def Frame.passes (f : Frame) : Bool := f.get 7 == crc (f.cells.take 7)

/-- R189: bytes 2 to 6 as a 40-bit payload, byte 2 most significant. -/
def Frame.payload (f : Frame) : BitVec 40 := f.get 2 ++ f.get 3 ++ f.get 4 ++ f.get 5 ++ f.get 6

/-- The unsigned number in bits `hi` to `lo` of a payload. -/
def slice (b : BitVec 40) (hi lo : Nat) : Nat := b.toNat / 2 ^ lo % 2 ^ (hi + 1 - lo)

/-- R189: the class of an ERROR frame. -/
def errClassOfBits (n : Fin 4) : ErrClass :=
  match n with
  | 0 => .bit
  | 1 => .symbol
  | 2 => .uncorrectable
  | 3 => .poison

/-- R189: the result of a SCRUB_REPLY frame. -/
def replyResultOfBits (n : Fin 4) : ReplyResult :=
  match n with
  | 0 => .clean
  | 1 => .corrected
  | 2 => .uncorrectable
  | 3 => .refused

/-- R189: the payload of an ERROR frame. -/
def errorPayload (b : BitVec 40) : ErrorReport where
  cls    := errClassOfBits (Fin.ofNat 4 (slice b 39 38))
  origin := if slice b 37 37 = 0 then .demand else .controller
  rank   := Fin.ofNat 4 (slice b 36 35)
  bank   := Fin.ofNat 32 (slice b 34 30)
  row    := Fin.ofNat 262144 (slice b 29 12)
  column := Fin.ofNat 1024 (slice b 11 2)

/-- R189: the payload of a SCRUB_REPLY frame. -/
def replyPayload (b : BitVec 40) : ScrubReply where
  tag        := Fin.ofNat 4 (slice b 39 38)
  request    := BitVec.ofNat 8 (slice b 37 30)
  result     := replyResultOfBits (Fin.ofNat 4 (slice b 29 28))
  cls        := if slice b 27 27 = 0 then .bit else .symbol
  errorCount := BitVec.ofNat 8 (slice b 26 19)
  column     := Fin.ofNat 1024 (slice b 18 9)

/-- R189: what a frame that passes the check says, by its byte 0; byte 1 is its sequence number. -/
def Frame.meaning (f : Frame) (ch : Chan) : Instr :=
  match (f.get 0).toNat with
  | 1 => .error ch (f.get 1) (errorPayload f.payload)
  | 2 => .scrubReply ch (f.get 1) (replyPayload f.payload)
  | 3 => .hold ch (f.get 1)
  | 4 => .resume ch (f.get 1)
  | 5 => .sync ch (f.get 1)
  | _ => .unknownKindFrame ch (f.get 1) (f.get 0)

/-- R102, R189: the arrival that the delivery of an upstream frame makes at the link receiver of a channel. -/
def Frame.arrival (f : Frame) (ch : Chan) : Instr := if f.passes then f.meaning ch else .frameCheckFailure ch

/-- A frame of a kind, a sequence number and a payload, with its check value in byte 7 (R102, R103). -/
def frameOf (kind seq : Byte) (b : BitVec 40) : Frame :=
  let bytes := [kind, seq, b.extractLsb' 32 8, b.extractLsb' 24 8, b.extractLsb' 16 8, b.extractLsb' 8 8, b.extractLsb' 0 8]
  ⟨bytes ++ [crc bytes], rfl⟩

/-- A payload made of fields (lowest bit, value); unnamed bits are 0. -/
def payloadOf (fields : List (Nat × Nat)) : BitVec 40 :=
  BitVec.ofNat 40 ((fields.map (fun f => f.2 * 2 ^ f.1)).sum)

/-- R189: the code of a class. -/
def errClassBits : ErrClass → Nat
  | .bit => 0
  | .symbol => 1
  | .uncorrectable => 2
  | .poison => 3

/-- R189: the code of a reply's result. -/
def replyResultBits : ReplyResult → Nat
  | .clean => 0
  | .corrected => 1
  | .uncorrectable => 2
  | .refused => 3

/-- R189: the frame that a channel controller sends for an ERROR report. -/
def errorFrame (r : ErrorReport) (seq : Byte) : Frame :=
  frameOf 1 seq (payloadOf [(38, errClassBits r.cls), (37, match r.origin with | .demand => 0 | .controller => 1),
    (35, r.rank.val), (30, r.bank.val), (12, r.row.val), (2, r.column.val)])

/-- R189: the frame that a channel controller sends for a scrub reply. -/
def replyFrame (r : ScrubReply) (seq : Byte) : Frame :=
  frameOf 2 seq (payloadOf [(38, r.tag.val), (30, r.request.toNat), (28, replyResultBits r.result),
    (27, match r.cls with | .bit => 0 | .symbol => 1), (19, r.errorCount.toNat), (9, r.column.val)])

/-- R104, R189: the bytes of a downstream frame; byte 1 and every unnamed payload bit are 0. -/
def DownFrame.bytes : DownFrame → Frame
  | .credit n => frameOf 9 0 (payloadOf [(37, n)])
  | .scrubRequest tag number kind rank bank row =>
    frameOf 10 0 (payloadOf [(38, tag.val), (30, number.toNat), (29, match kind with | .patrol => 0 | .verify => 1),
      (27, rank.val), (22, bank.val), (4, row.val)])
  | .syncRequest => frameOf 11 0 0

end Sys2Proof.Machine
end

