-- ==== Sys2Proof/Machine/Ports.lean ====
section
/-! DEFINITION. The bus cycles of the System port and the SPI frames of the Service port as the register accesses that they
make (R185 to R187). -/

namespace Sys2Proof.Machine

/-- R185: the command that a register write is. -/
def writeAccess (p : Port) (index : Fin 64) (v : Word) : Instr :=
  match index with
  | 2 => .mailboxStatusWrite p v
  | 3 => .commandWrite p v
  | 4 => .paramWrite p 0 v
  | 5 => .paramWrite p 1 v
  | 6 => .paramWrite p 2 v
  | 7 => .paramWrite p 3 v
  | 8 => .paramWrite p 4 v
  | 9 => .paramWrite p 5 v
  | 17 => .eventClearWrite p v
  | 18 => .lineMaskWrite p v
  | i => .registerWriteIgnored p i v

/-- R185: the command that a register read is. Only a read of RESULT0 can have a side effect; every other read changes nothing
and answers `State.readRegister`. -/
def readAccess (p : Port) (index : Fin 64) (edge : Bool) : Option Instr :=
  if index = 10 then some (.result0Read p edge) else none

/-- R186: a cycle on the System port, from the falling to the rising edge of its strobe. -/
structure SystemCycle where
  /-- RD_N is asserted in the cycle -/
  read   : Bool
  /-- WR_N is asserted in the cycle -/
  write  : Bool
  /-- CS_N is asserted, instant by instant: the first when the strobe falls, the last when it rises -/
  select : List Bool
  /-- A7 to A2 -/
  index  : Fin 64
  /-- D31 to D0 at the rising edge of WR_N -/
  data   : Word
deriving DecidableEq, Repr

/-- R186: CS_N is asserted at the rising edge of the strobe. DESIGN CHOICE (log entry 23): a read whose CS_N was released and asserted
again within its RD_N strobe counts as one with CS_N asserted at the rise, and makes its side effect. -/
def SystemCycle.held (c : SystemCycle) : Bool := c.select.getLast? == some true

/-- R186: the command that a System cycle makes. A read needs CS_N at some instant of its strobe, and makes its side effect with
CS_N at the last one. -/
def SystemCycle.command (c : SystemCycle) : Option Instr :=
  match c.read, c.write with
  | true, true => none
  | false, true => if c.held then some (writeAccess .system c.index c.data) else none
  | true, false => if c.select.any id then readAccess .system c.index c.held else none
  | false, false => none

/-- R186: what a System cycle drives onto D31 to D0, instant by instant: while CS_N and RD_N are both asserted the value that the
register had when RD_N fell, in state `s`, and otherwise nothing. A cycle with both strobes, and any cycle while RST_N is asserted
(R184), is ignored and drives nothing. -/
def SystemCycle.driven (c : SystemCycle) (s : State) : List (Option Word) :=
  c.select.map (fun cs => if c.read && !c.write && cs && !s.rst then some (s.readRegister .system c.index.val) else none)

/-- The unsigned number that bits in order hold, the first most significant. -/
def numberOf (bits : List Bool) : Nat := bits.foldl (fun n b => 2 * n + b.toNat) 0

/-- R187: the index that a frame names, in bits 5 to 0 of its first byte. -/
def spiIndex (bits : List Bool) : Fin 64 := Fin.ofNat 64 (numberOf ((bits.take 8).drop 2))

/-- R187: the 32 data bits of a write frame. -/
def spiData (bits : List Bool) : Word := BitVec.ofNat 32 (numberOf ((bits.take 40).drop 8))

/-- R187: the command that an SPI frame makes, from the bits sampled at its rising clock edges in order. -/
def spiCommand (bits : List Bool) : Option Instr :=
  if bits.length < 40 then none
  else if bits.getD 0 false then readAccess .service (spiIndex bits) true
  else some (writeAccess .service (spiIndex bits) (spiData bits))

/-- R187: the levels of SDO in a frame, clock by clock: low during the first byte and past the fortieth clock; during the data bytes
of a read frame the register value at the eighth rising clock edge, in state `s`, most significant bit first. The manual gives no
level during the data bytes of a write frame, nor of a frame that RST_N ignores (R184): there the level is the argument `free` at
that clock, which nothing constrains (log entry 22). -/
def spiOut (s : State) (free : Nat → Bool) (bits : List Bool) : List Bool :=
  (List.range bits.length).map (fun k =>
    if 8 ≤ k ∧ k < 40 then
      if bits.getD 0 false && !s.rst then (s.readRegister .service (spiIndex bits).val).getLsbD (39 - k) else free k
    else false)

end Sys2Proof.Machine
end

