-- ==== Sys2Proof/Machine/Step.lean ====
section
/-! DEFINITION. The step of the part: the command at the front of the queue is taken whole before the next (R1). -/

namespace Sys2Proof.Machine

/-- R1: the block handles the command at the front of its queue. With no command waiting nothing happens. DESIGN CHOICE (log
entry 1). -/
def step (s : State) : Host.Outcome State Fault Refusal :=
  match s.pending with
  | [] => .next s
  | c :: rest => exec c (s.setPending rest)

/-- A command put at the front of the queue. -/
def State.withFront (s : State) (c : Instr) : State := s.setPending (c :: s.pending)

/-- The state with the command that a word spells at the front of its queue. No row of the table gives bits, so no word spells a
command and the state is unchanged (log entry 13). -/
def State.withFetchWord (s : State) (nbits w : Nat) : State :=
  match Sys2Proof.decodeTableWord nbits w with
  | none => s
  | some c => s.withFront c

end Sys2Proof.Machine
end

