-- ==== Sys2Proof/Safety.lean ====
section
/-! DEFINITION. The vocabulary of the statements: when the engine takes a command and what a completed command leaves (R164, R165),
and the laws of the manual as properties of a state. -/

namespace Sys2Proof.Machine

/-- The other port. -/
def Port.other : Port → Port
  | .system => .service
  | .service => .system

/-- R164, R184: RST_N is released, the engine is idle, the mailbox of `p` is PENDING and the arbiter chooses it: the other mailbox is
not PENDING, or the service-first setting or the rotation prefers `p`. -/
def State.Chosen (s : State) (p : Port) : Prop :=
  s.rst = false ∧ (s.mail p).state = .pending ∧ (s.mail (Port.other p)).state ≠ .running ∧
    ((s.mail (Port.other p)).state = .pending →
      if s.engine.serviceFirst = true then p = .service else s.engine.lastServed = Port.other p)

/-- The engine takes the command with code `n` from port `p`. -/
def State.Takes (s : State) (p : Port) (n : Nat) : Prop := s.Chosen p ∧ (s.mail p).command = BitVec.ofNat 32 n

/-- The parameter word `k` of the command in the mailbox of a port. -/
def State.param (s : State) (p : Port) (k : Fin 6) : Word := (s.mail p).params.get k

/-- The engine takes SCRUB_CONTROL with an action code from port `p`. -/
def State.TakesAction (s : State) (p : Port) (action : Nat) : Prop :=
  s.Takes p 64 ∧ field (s.param p 0) 11 8 = action

/-- R188: two parameter words name a location; their other bits are ignored. -/
def LocWords (a b : Word) (l : Loc) : Prop :=
  field a 3 0 = l.channel.val ∧ field a 7 4 = l.rank.val ∧ field a 15 8 = l.bank.val ∧ field a 27 16 = l.column.val ∧
    field b 19 0 = l.row.val

/-- R188: three parameter words name a range; their other bits are ignored. -/
def RangeWords (a first last : Word) (r : Range) : Prop :=
  field a 3 0 = r.channel.val ∧ field a 7 4 = r.rank.val ∧ field a 15 8 = r.bank.val ∧ field first 19 0 = r.first.val ∧
    field last 19 0 = r.last.val

/-- R2: two parameter words carry a location field beyond its field range. -/
def BeyondRange (a b : Word) : Prop :=
  8 ≤ field a 3 0 ∨ 4 ≤ field a 7 4 ∨ 32 ≤ field a 15 8 ∨ 1024 ≤ field a 27 16 ∨ 262144 ≤ field b 19 0

/-- R165: a mailbox whose command has been taken: RUNNING, with its parameters latched. -/
def Mailbox.taken (m : Mailbox) : Mailbox := { m with state := .running, latched := m.params }

/-- R165: a mailbox whose command has been taken and completed. -/
def Mailbox.completed (m : Mailbox) (code : ResultCode) (result : Pages) : Mailbox :=
  { m with state := .done, latched := m.params, code := code, result := result }

/-- R164, R165: the state with the command in the mailbox of a port taken and still RUNNING; nothing else differs. -/
def State.withTaken (s : State) (p : Port) : State :=
  match p with
  | .system => { s with sysMail := s.sysMail.taken, engine := { s.engine with lastServed := .system } }
  | .service => { s with svcMail := s.svcMail.taken, engine := { s.engine with lastServed := .service } }

/-- R164, R165, R178: the state with the command in the mailbox of a port taken and completed: the mailbox is DONE with the result,
the port is the last-served port and its done flag is set; nothing else differs. -/
def State.withDone (s : State) (p : Port) (code : ResultCode) (result : Pages) : State :=
  match p with
  | .system =>
    { s with
      sysMail := s.sysMail.completed code result
      engine  := { s.engine with lastServed := .system }
      events  := { s.events with flags := s.events.flags ||| EventFlag.sysCmdDone.mask } }
  | .service =>
    { s with
      svcMail := s.svcMail.completed code result
      engine  := { s.engine with lastServed := .service }
      events  := { s.events with flags := s.events.flags ||| EventFlag.svcCmdDone.mask } }

/-- R166: a refusal: the completion with result words 0. -/
def State.withRefusal (s : State) (p : Port) (code : ResultCode) : State := s.withDone p code (pages [] [] [])

/-- R165: the completion with OK and one page of result words. -/
def State.withOk (s : State) (p : Port) (ws : List Word) : State := s.withDone p .ok (pages ws [] [])

/-- R115: the frame's sequence number takes it past the sequence test: distance 0 to 127. -/
def State.passesSeq (s : State) (ch : Chan) (seq : BitVec 8) : Prop := (seq - (s.link ch).expected).toNat ≤ 127

/-- R115: the link of a channel once it has taken the sequence number of a frame that passed the check: the run of check failures is
broken, the frame's number plus one is expected, and a gap of `d` frames is added to the lost counter. -/
def Link.heard (l : Link) (seq : BitVec 8) (d : Nat) : Link :=
  { l with
    checkFailures := 0
    expected := seq + 1
    counters := { l.counters with lost := if d = 0 then l.counters.lost else satAdd l.counters.lost d } }

/-- R115: REPORTS_LOST is set at a gap and at no other frame. -/
def EventUnit.heard (e : EventUnit) (d : Nat) : EventUnit :=
  if d = 0 then e else { e with flags := e.flags ||| EventFlag.reportsLost.mask }

/-- R147: a channel has a read record exactly while one of its tags is BUSY with a request of kind VERIFY, and the record names that
tag and its request number. -/
def State.RecordLaw (s : State) : Prop :=
  ∀ ch : Chan, ∀ tag : Tag, ∀ number : BitVec 8,
    (∃ q, (s.scrub ch).tags.get tag = some q ∧ q.kind = .verify ∧ q.number = number) ↔
      (∃ r, s.verify.records.get ch = some r ∧ r.tag = tag ∧ r.number = number)

/-- R151: the jobs that cannot become the head, one after another, because the link of their channel is not ACTIVE. -/
def State.passedOver (s : State) (jobs : List Job) : List Job := jobs.takeWhile (fun j => decide ((s.link j.channel).state ≠ .active))

/-- R151: the jobs from the first one on whose channel's link is ACTIVE. -/
def State.fromHead (s : State) (jobs : List Job) : List Job := jobs.dropWhile (fun j => decide ((s.link j.channel).state ≠ .active))

/-- R151, R155, R156: from `s` to `t` the jobs `gone` are aborted with reason LINK, in order, and the queue is left with `jobs`, the
first of them as the head: RUNNING, with its location taken from its entry. Every entry keeps all but its verify status. -/
structure HeadChange (gone jobs : List Job) (s t : State) : Prop where
  queue     : t.verify.jobs = match jobs with
    | [] => []
    | j :: rest => { j with location := (s.entry j.cet).map (fun e => ⟨e.key.rank, e.key.bank, e.lastRow⟩) } :: rest
  lastAbort : t.verify.lastAbort = match gone.getLast? with
    | none => s.verify.lastAbort
    | some j => some (.link, j.cet)
  flag      : t.flagged .verifyAborted = (s.flagged .verifyAborted || !gone.isEmpty)
  entries   : ∀ i, t.entry i = (s.entry i).map (fun e => { e with
    status := if jobs.head?.map Job.cet = some i then .running else if i ∈ gone.map Job.cet then .idle else e.status })
  cet       : t.cet = { s.cet with entries := t.cet.entries }
  verify    : t.verify = { s.verify with jobs := t.verify.jobs, records := t.verify.records, lastAbort := t.verify.lastAbort }

/-- R113, R141, R155, R156: what a departure of the link of a channel from ACTIVE leaves, whichever state it enters (log entry 6): no
credit, no run of check failures, no waiting CREDIT or SCRUB_REQUEST, every tag IDLE, no timeout in a row, no hold, a patrol that
was DRAINING or HELD under the hold RUNNING again, and LINK_CHANGE set. A RUNNING verify job of the channel is aborted with reason
LINK and the next job becomes the head; any other queue, its abort summary and the CET stay as they are. The channel's read record
is absent, and in a state against the law of records it has at least no owner. Every other channel keeps its link, transmitter,
scrub context and record, and the tables, the log and the engine keep everything. -/
structure Departed (s t : State) (ch : Chan) : Prop where
  credits  : (t.link ch).outstanding = 0 ∧ (t.link ch).awaiting = 0
  failures : (t.link ch).checkFailures = 0
  kept     : (t.link ch).geometry = (s.link ch).geometry ∧ (t.link ch).expected = (s.link ch).expected
  waiting  : ∀ f ∈ (t.txs.get ch).waiting, f = .syncRequest
  tags     : ∀ tag, (t.scrub ch).tags.get tag = none
  run      : (t.scrub ch).timeoutRun = 0
  hold     : (t.scrub ch).holdFlag = false
  patrol   : (t.scrub ch).patrol =
    if (s.scrub ch).holdFlag = true ∧ ((s.scrub ch).patrol = .draining ∨ (s.scrub ch).patrol = .held) then .running
    else (s.scrub ch).patrol
  context  : t.scrub ch = { s.scrub ch with
    patrol := (t.scrub ch).patrol
    tags := (t.scrub ch).tags
    timeoutRun := 0
    holdFlag := false
    ceilingTimer := if (s.scrub ch).holdFlag = true then none else (s.scrub ch).ceilingTimer
    counters := (t.scrub ch).counters }
  job      : ∀ j, t.verify.jobs.head? = some j → j.channel ≠ ch
  aborted  : ∀ j rest, s.verify.jobs = j :: rest → j.channel = ch →
    HeadChange (j :: t.passedOver rest) (t.fromHead rest) s t ∧ (∀ r, t.verify.records.get ch = some r → r.owned = false)
  unmoved  : (∀ j, s.verify.jobs.head? = some j → j.channel ≠ ch) →
    t.verify.jobs = s.verify.jobs ∧ t.verify.lastAbort = s.verify.lastAbort ∧ t.cet = s.cet ∧
      t.flagged .verifyAborted = s.flagged .verifyAborted
  record   : s.RecordLaw → t.verify.records.get ch = none
  flag     : t.flagged .linkChange = true
  others   : ∀ c, c ≠ ch → t.link c = s.link c ∧ t.txs.get c = s.txs.get c ∧ t.scrub c = s.scrub c ∧
    t.verify.records.get c = s.verify.records.get c
  frame    : t = { s with
    cet := { s.cet with entries := t.cet.entries }
    verify := { s.verify with jobs := t.verify.jobs, records := t.verify.records, lastAbort := t.verify.lastAbort }
    queues := t.queues
    links := t.links
    txs := t.txs
    scrubs := t.scrubs
    events := { s.events with flags := t.events.flags } }

/-- R150, R151: a job for the entry `e` at an index, whose verify status is IDLE, is created with the settings in force. Behind other
jobs it is QUEUED; in an empty queue it is the head, RUNNING with its location on an ACTIVE link, and aborted at once with reason
LINK on any other. -/
def State.withJob (s : State) (i : CetIdx) (e : CetEntry) : State :=
  let job : Job := ⟨i, e.key.channel, none, s.verify.reads, s.verify.persist, 0, 0, 0, 0⟩
  let joined := fun (v : VerifyStatus) (jobs : List Job) => ({ s with
    cet := { s.cet with entries := s.cet.entries.set i (some { e with status := v }) }
    verify := { s.verify with jobs := jobs } } : State)
  if s.verify.jobs ≠ [] then joined .queued (s.verify.jobs ++ [job])
  else if (s.link e.key.channel).state = .active then
    joined .running [{ job with location := some ⟨e.key.rank, e.key.bank, e.lastRow⟩ }]
  else { s with
    verify := { s.verify with lastAbort := some (.link, i) }
    events := { s.events with flags := s.events.flags ||| EventFlag.verifyAborted.mask } }

/-- R20 to R22: the promotion of the entry `e` at an index, in order: OVER_THRESHOLD and CE_THRESHOLD; with auto-verify on, for an IDLE
entry, a job, or in a full queue the verify-queue-full counter; under ON_THRESHOLD, for an absent link, the proposal attempt. -/
def State.promoted (s : State) (i : CetIdx) (e : CetEntry) : State :=
  let top : CetEntry := { e with state := .overThreshold }
  let raised : State := { s with
    cet := { s.cet with entries := s.cet.entries.set i (some top) }
    events := { s.events with flags := s.events.flags ||| EventFlag.ceThreshold.mask } }
  let verified : State :=
    if s.cet.policy.autoVerify = true ∧ e.status = .idle then
      if s.verify.jobs.length < 8 then raised.withJob i top
      else { raised with cet := { raised.cet with verifyQueueFull := min (s.cet.verifyQueueFull + 1) 65535 } }
    else raised
  if s.cet.policy.proposeMode = .onThreshold ∧ e.link = none then verified.proposalAttempt i else verified

/-- R25: an entry may be a victim: TRACKING, not pinned and with no verify job. -/
def CetEntry.Eligible (e : CetEntry) : Prop := e.state = .tracking ∧ e.pinned = false ∧ e.status = .idle

/-- R11, R25: an entry at an index is the better victim of two: the lower count, then the greater age, then the lower index. -/
def BetterVictim (now : Time) (i : CetIdx) (e : CetEntry) (j : CetIdx) (f : CetEntry) : Prop :=
  e.count < f.count ∨ (e.count = f.count ∧
    ((now - f.lastSeen).toNat < (now - e.lastSeen).toNat ∨ ((now - f.lastSeen).toNat = (now - e.lastSeen).toNat ∧ i < j)))

/-- R28, R49: a retirement entry after the CET entry at an index has been freed. -/
def RetEntry.without (a : RetEntry) (i : CetIdx) : RetEntry :=
  if a.evidence = some (.cet i) then { a with evidence := none } else a

/-- R29: a CET entry after a leak expiry. -/
def leaked (e : Option CetEntry) : Option CetEntry :=
  match e with
  | none => none
  | some e =>
    if e.state = .tracking ∧ e.pinned = false ∧ e.status = .idle then
      (if e.count ≤ 1 then none else some { e with count := e.count - 1 })
    else some e

/-- R89: how far a source stands behind the last-served source in the circular order: 0 for the next one, 8 for itself. -/
def Source.turns (last x : Source) : Nat := (x.place + 8 - last.place) % 9

/-! ### The laws of the manual -/

/-- R118: for an ACTIVE link, occupancy, credits outstanding and credits awaiting return sum to 6, and a queue that is empty has none
awaiting; for any other link both counts are 0. R85: no queue holds more than 6 reports. -/
def State.CreditLaw (s : State) : Prop :=
  ∀ ch : Chan,
    (s.queues.get ch).length ≤ 6 ∧
    (if (s.link ch).state = .active then
      (s.queues.get ch).length + (s.link ch).outstanding + (s.link ch).awaiting = 6 ∧
        (s.queues.get ch = [] → (s.link ch).awaiting = 0)
    else (s.link ch).outstanding = 0 ∧ (s.link ch).awaiting = 0)

/-- R107, R111, R114: the attempt count is 1 to 3 in SYNCING and 0 outside it, its timer runs in SYNCING alone, and the run of check
failures stays below the four that fail the link, and is 0 outside ACTIVE. -/
def State.LinkLaw (s : State) : Prop :=
  ∀ ch : Chan,
    (if (s.link ch).state = .syncing then
      1 ≤ (s.link ch).attempts ∧ (s.link ch).attempts ≤ 3 ∧ (s.link ch).attemptTimer.isSome
    else (s.link ch).attempts = 0 ∧ (s.link ch).attemptTimer = none) ∧
    (s.link ch).checkFailures < 4 ∧
    ((s.link ch).state ≠ .active → (s.link ch).checkFailures = 0)

/-- R128, R131, R137, R141: while a link is not ACTIVE its tags are IDLE, its hold flag is clear and its run of timeouts is 0; a
patrol is DRAINING or HELD only while the hold flag is set, and RUNNING only while it is clear; a hold ceiling timer runs only
while the hold flag is set; the run of timeouts stays below the three that fail the link. -/
def State.ScrubLaw (s : State) : Prop :=
  ∀ ch : Chan,
    ((s.link ch).state ≠ .active →
      (∀ tag : Tag, (s.scrub ch).tags.get tag = none) ∧ (s.scrub ch).holdFlag = false ∧ (s.scrub ch).timeoutRun = 0) ∧
    ((s.scrub ch).patrol = .draining ∨ (s.scrub ch).patrol = .held → (s.scrub ch).holdFlag = true) ∧
    ((s.scrub ch).patrol = .running → (s.scrub ch).holdFlag = false) ∧
    ((s.scrub ch).holdFlag = false → (s.scrub ch).ceilingTimer = none) ∧
    (s.scrub ch).timeoutRun < 3

/-- R104: at most one CREDIT, one SYNC_REQUEST and one SCRUB_REQUEST for each tag wait in a transmitter, and none waits or is sent
while the link is DOWN. -/
def State.TransmitterLaw (s : State) : Prop :=
  ∀ ch : Chan,
    (s.txs.get ch).waiting.countP DownFrame.isCredit ≤ 1 ∧
    (s.txs.get ch).waiting.countP DownFrame.isSync ≤ 1 ∧
    (∀ tag : Tag, (s.txs.get ch).waiting.countP (DownFrame.isRequestOf tag) ≤ 1) ∧
    ((s.link ch).state = .down → s.txs.get ch = ⟨[], none⟩)

/-- R14: every valid entry has a count from 1 to 65535, no two valid entries have equal keys, and at most 96 are pinned. -/
def State.CetLaw (s : State) : Prop :=
  (∀ i e, s.entry i = some e → 1 ≤ e.count ∧ e.count ≤ 65535) ∧
  (∀ i j e f, s.entry i = some e → s.entry j = some f → e.key = f.key → i = j) ∧
  s.cet.pinnedCount ≤ 96

/-- The valid retirement entry at an index. -/
def State.retired (s : State) (i : RetIdx) : Option RetEntry := s.retire.entries.get i

/-- R42, R51: no two valid entries overlap, the confirmed time is present exactly in a CONFIRMED entry, and a PROPOSED entry has
suppressed nothing. -/
def State.ListLaw (s : State) : Prop :=
  (∀ i j a b, s.retired i = some a → s.retired j = some b → a.range.overlaps b.range = true → i = j) ∧
  (∀ i a, s.retired i = some a → (a.state = .confirmed ↔ a.confirmed.isSome)) ∧
  (∀ i a, s.retired i = some a → a.state = .proposed → a.suppressed = 0)

/-- R65, R66, R75: at most 16 records are held, and an ESCALATED record has no window. -/
def State.UelLaw (s : State) : Prop :=
  s.uel.records.length ≤ 16 ∧ ∀ r ∈ s.uel.records, r.ack = .escalated → r.window = none

/-- R59, R164, R165: at most one mailbox is RUNNING; a mailbox is RUNNING exactly while a purge is in progress; the purge serves a
CONFIRMED entry, has an index left to visit and has purged no more entries than it has visited. -/
def State.EngineLaw (s : State) : Prop :=
  ¬(s.sysMail.state = .running ∧ s.svcMail.state = .running) ∧
  (s.engine.purge.isSome ↔ s.sysMail.state = .running ∨ s.svcMail.state = .running) ∧
  (∀ g, s.engine.purge = some g →
    g.next < 128 ∧ g.purged ≤ g.next ∧ ∃ a, s.retired g.serves = some a ∧ a.state = .confirmed)

/-- R3, R7, R9, R46, R127: every channel has an allowed geometry; within it lie the cursor, every request outstanding, the key and the
last row of every valid CET entry of the channel, every retirement range of it and the location of every verify job of it. -/
def State.GeometryLaw (s : State) : Prop :=
  (∀ ch : Chan, (s.geometry ch).allowed = true ∧
    (s.geometry ch).admits (s.scrub ch).cursor.rank (s.scrub ch).cursor.bank (s.scrub ch).cursor.row = true ∧
    ∀ tag q, (s.scrub ch).tags.get tag = some q → (s.geometry ch).admits q.rank q.bank q.row = true) ∧
  (∀ i e, s.entry i = some e → e.compatible (s.geometry e.key.channel) = true) ∧
  (∀ i a, s.retired i = some a → a.range.wellFormed (s.geometry a.range.channel) = true) ∧
  (∀ j ∈ s.verify.jobs, ∀ l, j.location = some l → (s.geometry j.channel).admits l.rank l.bank l.row = true)

/-- R61: a valid CET entry whose key lies inside a CONFIRMED range exists only while the purge started for that range is in progress,
at an index that the purge has not visited yet. -/
def State.PurgeLaw (s : State) : Prop :=
  ∀ i e j a, s.entry i = some e → s.retired j = some a → a.state = .confirmed →
    e.key.inside a.range (s.geometry e.key.channel) = true →
    ∃ g, s.engine.purge = some g ∧ g.serves = j ∧ g.next ≤ i.val

/-- R31, R147, R148, R151: the queue holds at most 8 jobs, at most one for each CET entry; every job has a valid entry of its channel;
an entry is RUNNING exactly when its job is the head, QUEUED exactly when its job stands behind the head, and IDLE otherwise; the
link of the head's channel is ACTIVE; the head has a location and no job behind it has one. -/
def State.QueueLaw (s : State) : Prop :=
  s.verify.jobs.length ≤ 8 ∧
  (s.verify.jobs.map Job.cet).Nodup ∧
  (∀ j ∈ s.verify.jobs, ∃ e, s.entry j.cet = some e ∧ e.key.channel = j.channel) ∧
  (∀ i e, s.entry i = some e →
    (e.status = .running ↔ s.verify.jobs.head?.map Job.cet = some i) ∧
    (e.status = .queued ↔ i ∈ s.verify.jobs.tail.map Job.cet)) ∧
  (∀ j, s.verify.jobs.head? = some j → (s.link j.channel).state = .active ∧ j.location.isSome) ∧
  (∀ j ∈ s.verify.jobs.tail, j.location = none)

/-- The head job owns the read record of its channel. -/
def State.headOwns (s : State) (j : Job) : Bool := (s.verify.records.get j.channel).any ReadRecord.owned

/-- R147, R148: the head job has issued one read more than it has counted while it owns its channel's record, and otherwise as many;
it has not counted all its reads; the jobs behind it have issued and counted none; only the head owns a record. -/
def State.ReadsLaw (s : State) : Prop :=
  (∀ j, s.verify.jobs.head? = some j →
    j.issued = j.counted + (s.headOwns j).toNat ∧ j.counted < j.reads) ∧
  (∀ j ∈ s.verify.jobs.tail, j.issued = 0 ∧ j.counted = 0) ∧
  (∀ j ∈ s.verify.jobs, 1 ≤ j.persist ∧ j.persist ≤ j.reads ∧ j.reads ≤ 15) ∧
  (∀ ch r, s.verify.records.get ch = some r → r.owned = true → ∃ j, s.verify.jobs.head? = some j ∧ j.channel = ch)

/-- R15, R68, R107, R127, R147: every setting holds one of its values. -/
def State.SettingsLaw (s : State) : Prop :=
  (1 ≤ s.cet.policy.threshold ∧ s.cet.policy.threshold ≤ 255) ∧ s.cet.policy.leakInterval ≤ 65535 ∧
  s.uel.policy.systemWindow ≤ 65535 ∧ s.uel.policy.serviceWindow ≤ 65535 ∧
  (1 ≤ s.batch ∧ s.batch ≤ 6) ∧
  (1 ≤ s.verify.persist ∧ s.verify.persist ≤ s.verify.reads ∧ s.verify.reads ≤ 15) ∧
  (∀ ch : Chan,
    (1 ≤ (s.scrub ch).pacing ∧ (s.scrub ch).pacing ≤ 65535) ∧ (1 ≤ (s.scrub ch).segment ∧ (s.scrub ch).segment ≤ 64) ∧
    (s.scrub ch).ceiling ≤ 65535 ∧ (1 ≤ (s.scrub ch).replyTimeout ∧ (s.scrub ch).replyTimeout ≤ 255))

/-- Every law. -/
structure State.Lawful (s : State) : Prop where
  credit      : s.CreditLaw
  link        : s.LinkLaw
  scrub       : s.ScrubLaw
  transmitter : s.TransmitterLaw
  cet         : s.CetLaw
  list        : s.ListLaw
  uel         : s.UelLaw
  engine      : s.EngineLaw
  geometry    : s.GeometryLaw
  purge       : s.PurgeLaw
  queue       : s.QueueLaw
  record      : s.RecordLaw
  reads       : s.ReadsLaw
  settings    : s.SettingsLaw

end Sys2Proof.Machine
end

