-- ==== Sys2Proof/Certificates/Slice0/Obligations.lean ====
section
/-! DEFINITION. The statements for the provers. Each docstring says which rules of the manual a statement rests on; a clause that rests
on a choice of the model names its log entry. -/

open Sys2Proof Sys2Proof.Machine

/-! ### The step, the queue and reset -/

/-- R1: a step takes the command at the front of the queue and is what the command does to the part, with the rest of the queue
behind it. -/
def Obligations.StepTakesFrontCommand : Prop :=
  ∀ (c : Instr) (s : State), step (s.withFront c) = exec c s

/-- Every well-formed command of every row ends in a next state, in every state of the part, and leaves the commands behind it
waiting; an ill-formed term is refused by name (log entry 14). That FULL_RESET keeps the commands that wait is log entry 18;
that the row of an event whose condition fails ends in a next state is log entry 2. -/
def Obligations.EveryCommandCompletes : Prop :=
  ∀ (c : Instr) (s : State),
    (c.wellFormed = true → ∃ t, exec c s = .next t ∧ t.pending = s.pending) ∧
    (c.wellFormed = false → exec c s = .refused .illFormed)

/-- R184: while RST_N is asserted every access, arrival, expiry and take is ignored. -/
def Obligations.HeldPartIgnoresCommands : Prop :=
  ∀ (c : Instr) (s : State), s.rst = true → c.wellFormed = true → c ≠ .fullReset → c ≠ .fullResetEnd → exec c s = .next s

/-- R41, R64, R83, R101, R107, R126, R127, R147, R160, R184: FULL_RESET from every state, field by field. The commands that wait
outside the part are kept (log entry 18). -/
def Obligations.FullResetValues : Prop :=
  ∀ s : State, ∃ t, exec .fullReset s = .next t ∧
    t.rst = true ∧ t.clock.time = 0 ∧ t.pending = s.pending ∧
    (∀ i, t.entry i = none) ∧ t.cet.generation = 0 ∧ t.cet.lost = 0 ∧ t.cet.replaced = 0 ∧ t.cet.verifyQueueFull = 0 ∧
    t.cet.policy = ⟨.row, 16, 60, false, .off⟩ ∧ t.cet.leakTimer = none ∧
    (∀ i, t.retired i = none) ∧ t.retire.merged = 0 ∧ t.retire.refused = 0 ∧ t.engine.authority = .both ∧
    t.uel.records = [] ∧ t.uel.nextId = 0 ∧ t.uel.overflow = 0 ∧ t.uel.firstLost = none ∧
    t.uel.policy = ⟨500, 2000, true, false, false⟩ ∧
    (∀ ch, t.queues.get ch = []) ∧ t.intake = ⟨none, .rotating, .slot⟩ ∧ (∀ ch, t.classifier.get ch = ⟨0, 0⟩) ∧
    (∀ ch, (t.link ch).state = .down ∧ (t.link ch).expected = 0 ∧ (t.link ch).outstanding = 0 ∧ (t.link ch).awaiting = 0 ∧
      (t.link ch).attempts = 0 ∧ (t.link ch).attemptTimer = none ∧ (t.link ch).checkFailures = 0 ∧
      t.geometry ch = ⟨4, 32, 262144⟩ ∧ (t.link ch).counters = ⟨0, 0, 0, 0, 0, 0, 0, 0, 0⟩) ∧
    (∀ ch, t.txs.get ch = ⟨[], none⟩) ∧ t.batch = 2 ∧
    (∀ ch, (t.scrub ch).patrol = .stopped ∧ (t.scrub ch).mode = .continuous ∧ (t.scrub ch).cursor = ⟨0, 0, 0⟩ ∧
      (t.scrub ch).stepDue = false ∧ (t.scrub ch).pacingTimer = none ∧ (t.scrub ch).pacing = 100 ∧
      (t.scrub ch).holdFlag = false ∧ (t.scrub ch).holdPolicy = .immediate ∧ (t.scrub ch).segment = 16 ∧
      (t.scrub ch).ceiling = 0 ∧ (t.scrub ch).ceilingTimer = none ∧ (t.scrub ch).replyTimeout = 20 ∧
      (∀ tag, (t.scrub ch).tags.get tag = none) ∧ (t.scrub ch).nextNumber = 0 ∧ (t.scrub ch).timeoutRun = 0 ∧
      (t.scrub ch).passes = 0 ∧ (t.scrub ch).counters = ⟨0, 0, 0⟩) ∧
    t.verify.jobs = [] ∧ (∀ ch, t.verify.records.get ch = none) ∧ t.verify.reads = 4 ∧ t.verify.persist = 3 ∧
    t.verify.lastAbort = none ∧
    t.engine.lastServed = .service ∧ t.engine.serviceFirst = false ∧ t.engine.purge = none ∧
    (∀ p, (t.mail p).state = .empty ∧ (t.mail p).command = 0 ∧ (∀ k, (t.mail p).params.get k = 0) ∧
      (∀ k, (t.mail p).latched.get k = 0) ∧ (∀ g k, ((t.mail p).result.get g).get k = 0) ∧ (t.mail p).code = .none ∧
      (t.mail p).page = 0 ∧ (t.mail p).collision = false) ∧
    t.events = ⟨0, 0, 0, false, false, false⟩ ∧
    t.irqAsserted = false ∧ t.alertAsserted = false ∧ t.fatalAsserted = false

/-- R17, R184: the rising edge of RST_N releases the part and starts the leak timer with the interval in force, 60000 ms after Full
reset; nothing else changes. The part is then in its state after reset: that State.reset stands for it is log entry 13, that the
commands that wait are kept is log entry 18, and the first value of the data last driven onto the ports is log entry 3. -/
def Obligations.FullResetEndStartsLeak : Prop :=
  ∀ s : State,
    (s.rst = true → exec .fullResetEnd s = .next
      { s with
        rst := false
        cet := { s.cet with leakTimer := if s.cet.policy.leakInterval = 0 then none
                                         else some (s.cet.policy.leakInterval * 1000) } }) ∧
    (∀ t, exec .fullReset s = .next t →
      exec .fullResetEnd t = .next { State.reset with pending := s.pending } ∧ State.reset.cet.leakTimer = some 60000)

/-- R11, R12: while RST_N is released, a 10 µs tick lowers every running pacing timer by one and is counted toward the event clock,
and nothing else changes. An event clock advance with a hundred ticks counted advances the clock by one, wrapping, and lowers
every millisecond timer by one: the leak timer, the windows of the records, the sync attempt timers, the hold ceilings and the
reply timers; nothing else changes. That the advance is an event of its own, uses up a hundred counted ticks and does not occur
before them is the choice of the model (log entry 5). That a timer whose time has run out stays at 0 until its expiry is taken
is the reading of log entry 4. -/
def Obligations.TicksLowerTimers : Prop :=
  (∀ s : State, s.rst = false → ∃ t, exec .pacingBaseTick s = .next t ∧
     t = { s with scrubs := t.scrubs, clock := ⟨s.clock.time, s.clock.ticks + 1⟩ } ∧
     ∀ ch, t.scrub ch = { s.scrub ch with pacingTimer := (s.scrub ch).pacingTimer.map (· - 1) }) ∧
  (∀ s : State, s.rst = false →
     (100 ≤ s.clock.ticks → ∃ t, exec .eventClockAdvance s = .next t ∧
       t = { s with
         clock := ⟨s.clock.time + 1, s.clock.ticks - 100⟩
         cet := { s.cet with leakTimer := s.cet.leakTimer.map (· - 1) }
         uel := { s.uel with records := s.uel.records.map (fun r => { r with window := r.window.map (· - 1) }) }
         links := t.links
         scrubs := t.scrubs } ∧
       (∀ ch, t.link ch = { s.link ch with attemptTimer := (s.link ch).attemptTimer.map (· - 1) }) ∧
       (∀ ch, t.scrub ch = { s.scrub ch with
         ceilingTimer := (s.scrub ch).ceilingTimer.map (· - 1)
         tags := (t.scrub ch).tags }) ∧
       (∀ ch tag, (t.scrub ch).tags.get tag =
         ((s.scrub ch).tags.get tag).map (fun q => { q with timer := q.timer - 1 }))) ∧
     (s.clock.ticks < 100 → exec .eventClockAdvance s = .next s))

/-! ### The register window -/

/-- R161: a COMMAND write in EMPTY or DONE takes the code, clears the result and makes the mailbox PENDING; in PENDING or RUNNING it
sets the collision flag alone. R162: a PARAM write in EMPTY or DONE stores the value, and in PENDING or RUNNING sets the
collision flag alone; a write of the mailbox status writes the page selector in every state and clears the collision flag when
bit 16 says so. Nothing but the mailbox of the writing port changes. -/
def Obligations.MailboxWrites : Prop :=
  (∀ (p : Port) (v : Word) (s : State), s.rst = false →
     exec (.commandWrite p v) s = .next (s.setMail p
       (match (s.mail p).state with
        | .empty => { s.mail p with command := v, result := Table.fill 3 (Table.fill 6 0), code := .none, page := 0, state := .pending }
        | .done => { s.mail p with command := v, result := Table.fill 3 (Table.fill 6 0), code := .none, page := 0, state := .pending }
        | .pending => { s.mail p with collision := true }
        | .running => { s.mail p with collision := true }))) ∧
  (∀ (p : Port) (k : Fin 6) (v : Word) (s : State), s.rst = false →
     (((s.mail p).state = .empty ∨ (s.mail p).state = .done) → ∃ m, exec (.paramWrite p k v) s = .next (s.setMail p m) ∧
       m = { s.mail p with params := m.params } ∧ m.params.get k = v ∧ ∀ j, j ≠ k → m.params.get j = (s.mail p).params.get j) ∧
     (((s.mail p).state = .pending ∨ (s.mail p).state = .running) →
       exec (.paramWrite p k v) s = .next (s.setMail p { s.mail p with collision := true })) ∧
     (∃ m, exec (.mailboxStatusWrite p v) s = .next (s.setMail p m) ∧
       m = { s.mail p with page := m.page, collision := m.collision } ∧
       m.page.val = (v.extractLsb' 8 2).toNat ∧ m.collision = ((s.mail p).collision && !v.getLsbD 16)))

/-- R163, R185, R186: a read of RESULT0 drives the word of the selected page, 0 for a page beyond the three; at the read's
side-effect edge a DONE mailbox becomes EMPTY and keeps its result, and nothing else changes. The driven word is the model's own
record of the port (log entry 12). -/
def Obligations.ResultReadEmptiesDoneMailbox : Prop :=
  ∀ (p : Port) (edge : Bool) (s : State), s.rst = false → ∃ t, exec (.result0Read p edge) s = .next t ∧
    t.mail p = { s.mail p with state := if edge = true ∧ (s.mail p).state = .done then .empty else (s.mail p).state } ∧
    t = { s with sysMail := t.sysMail, svcMail := t.svcMail, portData := t.portData } ∧
    t.mail (Port.other p) = s.mail (Port.other p) ∧
    (match p with
     | .system => t.portData = { s.portData with system := s.readRegister .system 10 }
     | .service => t.portData = { s.portData with service := s.readRegister .service 10 }) ∧
    s.readRegister p 10 =
      (if h : (s.mail p).page.val < 3 then ((s.mail p).result.get ⟨(s.mail p).page.val, h⟩).get 0 else 0)

/-- R180: an EVENT_CLEAR write from either port, index 17, clears exactly the flags that it names; the index reads as 0. R181: a
line mask write, index 18, replaces the mask of the writing port alone, and a read of it returns the mask of the reading port.
Neither write changes anything else. R182: IRQ_N and ALERT_N are asserted exactly while a set flag is in the IRQ mask or the
ALERT mask; R183: FATAL_N exactly while the latch is set; while RST_N is asserted all three are released. -/
def Obligations.FlagClearMasksAndLines : Prop :=
  (∀ (p : Port) (v : Word) (s : State), s.rst = false →
     (∃ e, exec (.eventClearWrite p v) s = .next { s with events := { s.events with flags := e } } ∧
       ∀ n, n < 17 → e.getLsbD n = (s.events.flags.getLsbD n && !v.getLsbD n)) ∧
     (∃ m : BitVec 17, (∀ n, n < 17 → m.getLsbD n = v.getLsbD n) ∧
       exec (.lineMaskWrite p v) s = .next
         (match p with
          | .system => { s with events := { s.events with irqMask := m } }
          | .service => { s with events := { s.events with alertMask := m } }))) ∧
  (∀ s : State,
     (s.irqAsserted = true ↔ s.rst = false ∧ ∃ n, n < 17 ∧ s.events.flags.getLsbD n = true ∧ s.events.irqMask.getLsbD n = true) ∧
     (s.alertAsserted = true ↔ s.rst = false ∧ ∃ n, n < 17 ∧ s.events.flags.getLsbD n = true ∧ s.events.alertMask.getLsbD n = true) ∧
     (s.fatalAsserted = true ↔ s.rst = false ∧ s.events.fatalLatch = true) ∧
     (∀ p v, s.readRegister p 17 = 0 ∧ writeAccess p 17 v = .eventClearWrite p v ∧ writeAccess p 18 v = .lineMaskWrite p v) ∧
     s.readRegister .system 18 = s.events.irqMask.setWidth 32 ∧ s.readRegister .service 18 = s.events.alertMask.setWidth 32)

/-- R185: a write to an index without write behaviour changes nothing, from either port: every index but 2 to 9, 17 and 18. R185:
what each index reads as from each port: identification, event clock, the port's own mailbox bit by bit, EVENT_STATUS, the four
summaries of the links, the CET, the UEL (R73) and the retirement list, authority and FATAL status for the Service port and 0
for the System port, and 0 at every other index. A field narrower than its count shows it modulo its width; in a lawful state
every count fits. R187: a write frame on the Service port of at least 40 clocks makes the write of its 32 data bits at the index
of its first byte, whatever bit 6 of that byte and whatever follows the fortieth clock; a frame of fewer clocks has no effect. A
read frame of at least 40 clocks has the side effect of a read of RESULT0 and no other; SDO carries the value that the register
has at the eighth rising edge, most significant bit first, during the data bytes, and is low during the first byte and past the
fortieth clock of every frame. The level in the data bytes of a write frame has no clause (log entry 22). R186: a System cycle
with both strobes makes no access and drives nothing. A write is taken when CS_N is asserted at the rise of WR_N. A read drives,
while CS_N is asserted, the value that the register had when RD_N fell; a read of RESULT0 with CS_N asserted in it makes its
side effect when CS_N is asserted at the rise, and no other read has one. That a CS_N released before and asserted again at the
rise makes it too is log entry 23. That a read other than of RESULT0 is no command is log entry 17. -/
def Obligations.PortAccesses : Prop :=
  (∀ (p : Port) (index : Fin 64) (v : Word) (s : State),
     ¬(2 ≤ index.val ∧ index.val ≤ 9) → index ≠ 17 → index ≠ 18 →
     writeAccess p index v = .registerWriteIgnored p index v ∧ exec (.registerWriteIgnored p index v) s = .next s) ∧
  (∀ (bit6 : Bool) (index : Fin 64) (v : Word) (rest bits : List Bool),
     spiCommand ([false, bit6] ++ (List.range 6).map (fun k => index.val.testBit (5 - k)) ++
         (List.range 32).map (fun k => v.getLsbD (31 - k)) ++ rest) = some (writeAccess .service index v) ∧
     (bits.length < 40 → spiCommand bits = none)) ∧
  ([MailState.empty, .pending, .running, .done].map MailState.code = [0, 1, 2, 3] ∧
   [LinkState.down, .syncing, .active, .failed].map LinkState.code = [0, 1, 2, 3] ∧
   [Authority.systemOnly, .serviceOnly, .both].map Authority.code = [0, 1, 2] ∧
   [ResultCode.none, .ok, .busy, .badCommand, .badParam, .notFound, .full, .limit, .overlap, .stateConflict, .notPermitted].map
     ResultCode.code = [0, 1, 2, 3, 4, 5, 6, 7, 8, 9, 10]) ∧
  (∀ (p : Port) (s : State),
     let m := s.mail p
     let w := s.readRegister p
     w 0 = 0x0C080001 ∧ w 1 = s.clock.time ∧
     field (w 2) 1 0 = m.state.code ∧ (w 2).getLsbD 2 = m.collision ∧ (w 2).getLsbD 3 = false ∧ field (w 2) 7 4 = m.code.code ∧
     field (w 2) 9 8 = m.page.val ∧ field (w 2) 31 10 = 0 ∧ w 3 = m.command ∧
     (∀ k : Fin 6, w (4 + k.val) = m.params.get k ∧
       w (10 + k.val) = (if h : m.page.val < 3 then (m.result.get ⟨m.page.val, h⟩).get k else 0)) ∧
     (∀ n, (w 16).getLsbD n = (decide (n < 17) && s.events.flags.getLsbD n)) ∧
     (∀ ch : Chan, field (w 19) (2 * ch.val + 1) (2 * ch.val) = (s.link ch).state.code) ∧ field (w 19) 31 16 = 0 ∧
     field (w 20) 7 0 = (List.finRange 128).countP (fun i => (s.entry i).isSome) ∧
     field (w 20) 14 8 = (List.finRange 128).countP (fun i => (s.entry i).any CetEntry.pinned) % 128 ∧ (w 20).getLsbD 15 = false ∧
     field (w 20) 31 16 = s.cet.generation.toNat ∧
     field (w 21) 4 0 = s.uel.records.length % 32 ∧ field (w 21) 7 5 = 0 ∧
     field (w 21) 15 8 = (match s.uel.records with | [] => 0 | r :: _ => r.id.toNat) ∧
     field (w 21) 20 16 = s.uel.records.countP (fun r => decide (r.ack = .opened)) % 32 ∧
     field (w 21) 25 21 = s.uel.records.countP (fun r => decide (r.ack = .handedOver)) % 32 ∧
     field (w 21) 30 26 = s.uel.records.countP (fun r => decide (r.ack = .escalated)) % 32 ∧ (w 21).getLsbD 31 = false ∧
     field (w 22) 5 0 = (List.finRange 32).countP (fun i => (s.retired i).any (fun a => decide (a.state = .proposed))) ∧
     field (w 22) 13 8 = (List.finRange 32).countP (fun i => (s.retired i).any (fun a => decide (a.state = .confirmed))) ∧
     field (w 22) 7 6 = 0 ∧ field (w 22) 31 14 = 0 ∧
     (∀ n, 23 ≤ n → n ≠ 48 → n ≠ 49 → w n = 0)) ∧
  (∀ s : State,
     let authority := s.readRegister .service 48
     let fatal := s.readRegister .service 49
     s.readRegister .system 48 = 0 ∧ s.readRegister .system 49 = 0 ∧
     field authority 1 0 = s.engine.authority.code ∧ authority.getLsbD 8 = s.engine.serviceFirst ∧ field authority 7 2 = 0 ∧
     field authority 31 9 = 0 ∧
     fatal.getLsbD 0 = s.events.fatalLatch ∧ fatal.getLsbD 1 = s.events.escalationCause ∧
     fatal.getLsbD 2 = s.events.overflowCause ∧ field fatal 31 3 = 0) ∧
  (∀ (c : SystemCycle) (s : State),
     let atRise := decide (c.select.getLast? = some true)
     (c.read = c.write → c.command = none) ∧
     (c.read = false ∨ c.write = true → ∀ x ∈ c.driven s, x = none) ∧
     (c.read = false → c.write = true →
       c.command = (if atRise = true then some (writeAccess .system c.index c.data) else none)) ∧
     (c.read = true → c.write = false →
       c.command = (if c.index = 10 ∧ true ∈ c.select then some (.result0Read .system atRise) else none) ∧
       c.driven s = c.select.map (fun asserted =>
         if asserted = true ∧ s.rst = false then some (s.readRegister .system c.index.val) else none))) ∧
  (∀ (bit6 : Bool) (index : Fin 64) (rest bits : List Bool) (s : State) (free : Nat → Bool),
     let frame := [true, bit6] ++ (List.range 6).map (fun k => index.val.testBit (5 - k)) ++ rest
     (32 ≤ rest.length → spiCommand frame = if index = 10 then some (.result0Read .service true) else none) ∧
     (s.rst = false → ∀ k, k < frame.length → (spiOut s free frame)[k]? =
       some (if 8 ≤ k ∧ k < 40 then (s.readRegister .service index.val).getLsbD (39 - k) else false)) ∧
     (∀ k, k < bits.length → k < 8 ∨ 40 ≤ k → (spiOut s free bits)[k]? = some false))

/-! ### Frames -/

/-- R102, R103, R189: the frame of every ERROR report and of every scrub reply, with any sequence number, arrives at the receiver of
its channel as exactly that report or reply, and a frame whose check value is altered arrives as a check failure. Of a frame
that passes the check, byte 0 decides the arrival: HOLD 3, RESUME 4, SYNC 5, whatever the payload holds; a code that is none of
1 to 5 makes a frame of unknown kind, the downstream codes 9, 10 and 11 included; each is a well-formed command. Every
downstream frame passes the check. -/
def Obligations.UpstreamFramesRoundTrip : Prop :=
  (∀ (ch : Chan) (seq : BitVec 8) (r : ErrorReport) (q : ScrubReply) (wrong : Byte),
     Frame.arrival (errorFrame r seq) ch = .error ch seq r ∧
     Frame.arrival (replyFrame q seq) ch = .scrubReply ch seq q ∧
     (wrong ≠ (errorFrame r seq).get 7 → Frame.arrival ((errorFrame r seq).set 7 wrong) ch = .frameCheckFailure ch) ∧
     (∀ f : DownFrame, f.bytes.passes = true)) ∧
  (∀ (f : Frame) (ch : Chan), f.passes = true →
     (f.get 0 = 3 → f.arrival ch = .hold ch (f.get 1)) ∧
     (f.get 0 = 4 → f.arrival ch = .resume ch (f.get 1)) ∧
     (f.get 0 = 5 → f.arrival ch = .sync ch (f.get 1)) ∧
     (¬(1 ≤ (f.get 0).toNat ∧ (f.get 0).toNat ≤ 5) → f.arrival ch = .unknownKindFrame ch (f.get 1) (f.get 0)) ∧
     (f.arrival ch).wellFormed = true)

/-! ### The command engine -/

/-- R166: a command that fails a test of the engine completes with that refusal and has no other effect: a code that names no
command, or an action code that names none; a service-only command from the System port; a retirement command from a port that
the authority does not admit. -/
def Obligations.EngineRefusals : Prop :=
  ∀ (p : Port) (s : State), s.Chosen p →
    ((s.mail p).command.toNat ∉ commandCodes → exec .badCommand s = .next (s.withRefusal p .badCommand)) ∧
    ((s.mail p).command = 64 → 6 ≤ field (s.param p 0) 11 8 →
      exec .scrubControlBadAction s = .next (s.withRefusal p .badParam)) ∧
    (p = .system →
      ((s.mail p).command = 80 → exec .setAuthority s = .next (s.withRefusal p .notPermitted)) ∧
      ((s.mail p).command = 81 → exec .setServiceFirst s = .next (s.withRefusal p .notPermitted)) ∧
      ((s.mail p).command = 82 → exec .clearFatal s = .next (s.withRefusal p .notPermitted)) ∧
      ((s.mail p).command = 83 → exec .engineReset s = .next (s.withRefusal p .notPermitted))) ∧
    ((s.engine.authority = .systemOnly ∧ p = .service) ∨ (s.engine.authority = .serviceOnly ∧ p = .system) →
      ((s.mail p).command = 34 → exec .addRetire s = .next (s.withRefusal p .notPermitted)) ∧
      ((s.mail p).command = 35 → exec .confirmRetire s = .next (s.withRefusal p .notPermitted)) ∧
      ((s.mail p).command = 36 → exec .rejectRetire s = .next (s.withRefusal p .notPermitted)) ∧
      ((s.mail p).command = 37 → exec .removeRetire s = .next (s.withRefusal p .notPermitted)))

/-- R164: while a command is RUNNING, or while no mailbox is PENDING, every row that the engine takes leaves the part as it is (log
entry 7 says how the rows stand for the one take). R132: no issue event is taken while the link is not ACTIVE, while every tag
is BUSY, or while no claimant is ready. R59: without a purge in progress no visit occurs. That such a row is the identity is the
choice of the model (log entry 2). -/
def Obligations.NothingToTakeChangesNothing : Prop :=
  (∀ s : State,
     (s.sysMail.state = .running ∨ s.svcMail.state = .running ∨
       (s.sysMail.state ≠ .pending ∧ s.svcMail.state ≠ .pending)) →
     ∀ c ∈ [Instr.badCommand, .configureChannel, .linkEnable, .linkDisable, .resyncLink, .setPolicy, .readCet, .findCet,
       .clearCetEntry, .clearCetAll, .pinCet, .unpinCet, .startVerify, .readRetire, .findRetire, .addRetire, .confirmRetire,
       .rejectRetire, .removeRetire, .readUe, .ackUe, .readUeOverflow, .scrubStart, .scrubStop, .setCursor, .setPacing,
       .setHoldPolicy, .setTimeout, .readCounters, .injectReport, .readStatus, .setAuthority, .setServiceFirst, .clearFatal,
       .engineReset, .scrubControlBadAction], exec c s = .next s) ∧
  (∀ (ch : Chan) (s : State),
     ((s.link ch).state ≠ .active ∨ (∀ tag, (s.scrub ch).tags.get tag ≠ none) ∨
       ((∀ j, s.verify.jobs.head? = some j →
           j.channel ≠ ch ∨ j.reads ≤ j.issued ∨ s.verify.records.get ch ≠ none ∨ (s.scrub ch).holdFlag = true) ∧
         ((s.scrub ch).patrol = .stopped ∨ (s.scrub ch).patrol = .held ∨ (s.scrub ch).stepDue = false))) →
     exec (.issueEvent ch) s = .next s) ∧
  (∀ s : State, s.engine.purge = none → exec .purgeVisit s = .next s)

/-- R172, R173, R174: the service-only settings. SET_AUTHORITY and SET_SERVICE_FIRST install the value that the code names and
return the previous and the new one; CLEAR_FATAL clears the latch and both causes and returns whether the latch was set. Nothing
else changes; a code that names no value is refused with BAD_PARAM. That a parameter with a word of its own is the whole word is
the reading of log entry 10. -/
def Obligations.ServiceOnlySettings : Prop :=
  ∀ s : State,
    (s.Takes .service 80 →
      (∀ a : Authority, s.param .service 0 = num a.code → exec .setAuthority s = .next
        (({ s with engine := { s.engine with authority := a } } : State).withOk .service
          [num s.engine.authority.code, num a.code])) ∧
      (3 ≤ (s.param .service 0).toNat → exec .setAuthority s = .next (s.withRefusal .service .badParam))) ∧
    (s.Takes .service 81 →
      (∀ b : Bool, s.param .service 0 = num b.toNat → exec .setServiceFirst s = .next
        (({ s with engine := { s.engine with serviceFirst := b } } : State).withOk .service
          [num s.engine.serviceFirst.toNat, num b.toNat])) ∧
      (2 ≤ (s.param .service 0).toNat → exec .setServiceFirst s = .next (s.withRefusal .service .badParam))) ∧
    (s.Takes .service 82 → exec .clearFatal s = .next
      (({ s with events := { s.events with fatalLatch := false, escalationCause := false, overflowCause := false } } : State).withOk
        .service [num s.events.fatalLatch.toNat]))

/-- R170, R171: READ_COUNTERS returns three pages of the values as they stand and, with clear yes, sets exactly the fourteen
counters of the channel and the five of the CET and the list to 0; with clear no, and for READ_STATUS, nothing but the
completion changes. A channel above 7 and a clear code that is neither yes nor no are refused with BAD_PARAM. That a parameter
with a word of its own is the whole word is the reading of log entry 10. R124, R145, R158, R170, R171 with the result layouts: a
result page holds its words from RESULT0 on and 0 in the others; the counters stand two to a word in their order, the first in
bits 15 to 0; the scrub state, the status words and every bit between them that a layout leaves unnamed. A field narrower than
its number shows it modulo its width; in a lawful state every number fits. The channel and the column of the cursor's word A
have no clause (log entry 11), and neither have the values of an absent head job or abort summary (log entry 21). -/
def Obligations.CountersAndStatus : Prop :=
  (∀ (p : Port) (s : State),
    (s.Takes p 65 → ∀ ch : Chan, s.param p 0 = num ch.val →
      (s.param p 1 = 0 → exec .readCounters s = .next (s.withDone p .ok
        (pages (linkPage (s.link ch).counters) (tablePage (s.classifier.get ch) (s.scrub ch).counters s.cet s.retire)
          (scrubPage (s.scrub ch))))) ∧
      (s.param p 1 = 1 → ∃ t : State, exec .readCounters s = .next (t.withDone p .ok
          (pages (linkPage (s.link ch).counters) (tablePage (s.classifier.get ch) (s.scrub ch).counters s.cet s.retire)
            (scrubPage (s.scrub ch)))) ∧
        t = { s with
          cet := { s.cet with lost := 0, replaced := 0, verifyQueueFull := 0 }
          retire := { s.retire with merged := 0, refused := 0 }
          links := t.links
          scrubs := t.scrubs
          classifier := t.classifier } ∧
        t.link ch = { s.link ch with counters := ⟨0, 0, 0, 0, 0, 0, 0, 0, 0⟩ } ∧
        t.scrub ch = { s.scrub ch with counters := ⟨0, 0, 0⟩ } ∧ t.classifier.get ch = ⟨0, 0⟩ ∧
        ∀ c, c ≠ ch → t.link c = s.link c ∧ t.scrub c = s.scrub c ∧ t.classifier.get c = s.classifier.get c) ∧
      (2 ≤ (s.param p 1).toNat → exec .readCounters s = .next (s.withRefusal p .badParam))) ∧
    (s.Takes p 65 → 8 ≤ (s.param p 0).toNat → exec .readCounters s = .next (s.withRefusal p .badParam)) ∧
    (s.Takes p 67 → exec .readStatus s = .next (s.withOk p (statusPage s)))) ∧
  (∀ (p0 p1 p2 : List Word) (k : Fin 6), ((pages p0 p1 p2).get 0).get k = p0.getD k.val 0 ∧
     ((pages p0 p1 p2).get 1).get k = p1.getD k.val 0 ∧ ((pages p0 p1 p2).get 2).get k = p2.getD k.val 0) ∧
  ([PatrolState.stopped, .running, .draining, .held].map PatrolState.code = [0, 1, 2, 3] ∧
   [AbortReason.cleared, .retired, .link].map AbortReason.code = [0, 1, 2]) ∧
  (∀ (l : LinkCounters) (k : ClassifierCounters) (c : Scrub) (t : Cet) (r : RetireList),
     let pair := fun (w : Word) (a b : Nat) => field w 15 0 = a % 2 ^ 16 ∧ field w 31 16 = b % 2 ^ 16
     let w := fun n => (linkPage l).getD n 0
     let v := fun n => (tablePage k c.counters t r).getD n 0
     let u := fun n => (scrubPage c).getD n 0
     pair (w 0) l.accepted l.checkFailures ∧ pair (w 1) l.lost l.duplicates ∧ pair (w 2) l.creditViolations l.malformed ∧
     pair (w 3) l.outOfState l.restarts ∧ pair (w 4) l.discarded 0 ∧ w 5 = 0 ∧
     pair (v 0) k.malformed k.stale ∧ pair (v 1) c.counters.timeouts c.counters.skippedRetired ∧
     pair (v 2) c.counters.skippedFailed t.lost ∧ pair (v 3) t.replaced t.verifyQueueFull ∧ pair (v 4) r.merged r.refused ∧ v 5 = 0 ∧
     field (u 0) 1 0 = c.patrol.code ∧ (u 0).getLsbD 2 = decide (c.mode = .singlePass) ∧ (u 0).getLsbD 3 = c.holdFlag ∧
     field (u 0) 6 4 = (List.finRange 4).countP (fun tag => (c.tags.get tag).isSome) ∧ field (u 0) 9 8 = c.timeoutRun % 4 ∧
     field (u 0) 31 16 = c.passes.toNat ∧ (u 0).getLsbD 7 = false ∧ field (u 0) 15 10 = 0 ∧
     field (u 1) 7 4 = c.cursor.rank.val ∧ field (u 1) 15 8 = c.cursor.bank.val ∧ field (u 1) 31 28 = 0 ∧
     (u 2).toNat = c.cursor.row.val ∧ u 3 = 0 ∧ u 4 = 0 ∧ u 5 = 0) ∧
  (∀ s : State,
     let w := fun n => (statusPage s).getD n 0
     (∀ ch : Chan, field (w 0) (4 * ch.val + 3) (4 * ch.val) = (s.queues.get ch).length % 16 ∧
       field (w 1) (4 * ch.val + 3) (4 * ch.val) = (s.link ch).outstanding % 16 ∧
       field (w 2) (4 * ch.val + 3) (4 * ch.val) = (s.link ch).awaiting % 16) ∧
     (w 3).getLsbD 0 = s.intake.slot.isSome ∧ (w 3).getLsbD 1 = decide (s.intake.mode = .fixed) ∧ field (w 3) 3 2 = 0 ∧
     field (w 3) 7 4 = s.verify.jobs.length % 16 ∧ (w 3).getLsbD 8 = !s.verify.jobs.isEmpty ∧ field (w 3) 15 9 = 0 ∧
     (∀ j, s.verify.jobs.head? = some j → field (w 3) 22 16 = j.cet.val) ∧ field (w 3) 31 23 = 0 ∧
     (w 4).getLsbD 0 = s.verify.lastAbort.isSome ∧
     (∀ reason i, s.verify.lastAbort = some (reason, i) → field (w 4) 2 1 = reason.code ∧ field (w 4) 14 8 = i.val) ∧
     field (w 4) 7 3 = 0 ∧ field (w 4) 31 15 = 0 ∧ w 5 = 0)

/-- R87: INJECT_REPORT with every parameter within its range fills an empty injection slot and refuses a full one with BUSY; the
geometry takes no part. A class code above 3, or a location field beyond its range, is refused with BAD_PARAM, the slot full or
not. That a parameter with a word of its own is the whole word is the reading of log entry 10. -/
def Obligations.InjectReportFillsSlot : Prop :=
  ∀ (p : Port) (l : Loc) (c : ErrClass) (s : State), s.Takes p 66 →
    (LocWords (s.param p 0) (s.param p 1) l → s.param p 2 = num (errClassBits c) →
      (s.intake.slot = none → exec .injectReport s = .next
        (({ s with intake := { s.intake with slot := some ⟨l, c⟩ } } : State).withOk p [])) ∧
      (s.intake.slot ≠ none → exec .injectReport s = .next (s.withRefusal p .busy))) ∧
    (4 ≤ (s.param p 2).toNat ∨ BeyondRange (s.param p 0) (s.param p 1) → exec .injectReport s = .next (s.withRefusal p .badParam))

/-- R169 with R16, R68, R88, R107 and R149. The test of each field that a SET_POLICY names, by position, on the raw words: the
granularity code and, where it differs from the one in force, an empty CET; threshold 1 to 255; leak interval to 65535; R 1 to
15 and, where P is not carried, not below the P in force; P 1 to the R that is then in force; the batch 1 to 6; each window to
65535; codes 0 to 2 of the propose mode, and 0 or 1 of auto-verify, the arbiter mode and the three UEL policies. A mask that
names a position above 13 is refused with BAD_PARAM and names no field; a command with a refused field applies no field and
names the lowest refused position with its refusal; otherwise every named field takes its new value, no other field changes, a
carried leak interval starts the leak timer again (R17), and the result is the mask. That a parameter with a word of its own is
the whole word is the reading of log entry 10. -/
def Obligations.SetPolicyAllOrNothing : Prop :=
  (∀ (ps : Table Word 6) (s : State),
     let w := policyWords ps
     let bits := fun (k : Fin 6) (lo n : Nat) => ((ps.get k).extractLsb' lo n).toNat
     let reads := if (ps.get 0).getLsbD 5 = true then bits 3 0 8 else s.verify.reads
     (3 = bits 1 0 2 → w.refuses s 0 = some .badParam) ∧
     (∀ g : Granularity, granularityOfCode (bits 1 0 2) = some g →
       (w.refuses s 0 = if g = s.cet.policy.granularity ∨ s.cet.occupancy = 0 then none else some .stateConflict)) ∧
     (w.refuses s 1 = if 1 ≤ bits 1 8 16 ∧ bits 1 8 16 ≤ 255 then none else some .badParam) ∧
     (w.refuses s 2 = if bits 2 0 32 ≤ 65535 then none else some .badParam) ∧
     (w.refuses s 3 = if bits 1 2 2 ≤ 1 then none else some .badParam) ∧
     (w.refuses s 4 = if bits 1 4 2 ≤ 2 then none else some .badParam) ∧
     (w.refuses s 5 = if 1 ≤ bits 3 0 8 ∧ bits 3 0 8 ≤ 15 ∧
       ((ps.get 0).getLsbD 6 = true ∨ s.verify.persist ≤ bits 3 0 8) then none else some .badParam) ∧
     (w.refuses s 6 = if 1 ≤ bits 3 8 8 ∧ bits 3 8 8 ≤ reads then none else some .badParam) ∧
     (w.refuses s 7 = if bits 3 16 2 ≤ 1 then none else some .badParam) ∧
     (w.refuses s 8 = if 1 ≤ bits 3 24 4 ∧ bits 3 24 4 ≤ 6 then none else some .badParam) ∧
     (w.refuses s 9 = if bits 4 0 32 ≤ 65535 then none else some .badParam) ∧
     (w.refuses s 10 = if bits 5 0 20 ≤ 65535 then none else some .badParam) ∧
     (w.refuses s 11 = if bits 5 20 2 ≤ 1 then none else some .badParam) ∧
     (w.refuses s 12 = if bits 5 22 2 ≤ 1 then none else some .badParam) ∧
     (w.refuses s 13 = if bits 5 24 2 ≤ 1 then none else some .badParam)) ∧
  (∀ (p : Port) (s : State), s.Takes p 5 →
     let mask := s.param p 0
     let w := policyWords (s.mail p).params
     (2 ^ 14 ≤ mask.toNat → exec .setPolicy s = .next (s.withDone p .badParam (pages [0, 31] [] []))) ∧
     (mask.toNat < 2 ^ 14 → ∀ n code, n < 14 → mask.getLsbD n = true → w.refuses s n = some code →
       (∀ m, m < n → mask.getLsbD m = true → w.refuses s m = none) →
       exec .setPolicy s = .next (s.withDone p code (pages [0, num n] [] []))) ∧
     (mask.toNat < 2 ^ 14 → (∀ n, n < 14 → mask.getLsbD n = true → w.refuses s n = none) →
       ∃ t : State, exec .setPolicy s = .next (t.withOk p [mask, 31]) ∧
         t = { s with
           cet := { s.cet with policy := t.cet.policy, leakTimer := t.cet.leakTimer }
           uel := { s.uel with policy := t.uel.policy }
           verify := { s.verify with reads := t.verify.reads, persist := t.verify.persist }
           intake := { s.intake with mode := t.intake.mode }
           batch := t.batch } ∧
         t.cet.policy.threshold = (if mask.getLsbD 1 = true then ((s.param p 1).extractLsb' 8 16).toNat else s.cet.policy.threshold) ∧
         t.cet.policy.leakInterval = (if mask.getLsbD 2 = true then (s.param p 2).toNat else s.cet.policy.leakInterval) ∧
         t.cet.leakTimer = (if mask.getLsbD 2 = true then
             (if s.param p 2 = 0 then none else some ((s.param p 2).toNat * 1000)) else s.cet.leakTimer) ∧
         t.verify.reads = (if mask.getLsbD 5 = true then ((s.param p 3).extractLsb' 0 8).toNat else s.verify.reads) ∧
         t.verify.persist = (if mask.getLsbD 6 = true then ((s.param p 3).extractLsb' 8 8).toNat else s.verify.persist) ∧
         t.cet.policy.granularity = (if mask.getLsbD 0 = true then
             (match ((s.param p 1).extractLsb' 0 2).toNat with | 0 => .cell | 1 => .row | _ => .bank) else s.cet.policy.granularity) ∧
         t.cet.policy.autoVerify = (if mask.getLsbD 3 = true then (s.param p 1).getLsbD 2 else s.cet.policy.autoVerify) ∧
         t.cet.policy.proposeMode = (if mask.getLsbD 4 = true then
             (match ((s.param p 1).extractLsb' 4 2).toNat with | 0 => .off | 1 => .onThreshold | _ => .onPersistent)
           else s.cet.policy.proposeMode) ∧
         t.intake.mode = (if mask.getLsbD 7 = true then (if (s.param p 3).getLsbD 16 = true then .fixed else .rotating)
           else s.intake.mode) ∧
         t.uel.policy.fatalOnEscalation =
           (if mask.getLsbD 11 = true then (s.param p 5).getLsbD 20 else s.uel.policy.fatalOnEscalation) ∧
         t.uel.policy.fatalOnOverflow =
           (if mask.getLsbD 12 = true then (s.param p 5).getLsbD 22 else s.uel.policy.fatalOnOverflow) ∧
         t.uel.policy.proposeOnUe = (if mask.getLsbD 13 = true then (s.param p 5).getLsbD 24 else s.uel.policy.proposeOnUe) ∧
         t.batch = (if mask.getLsbD 8 = true then ((s.param p 3).extractLsb' 24 4).toNat else s.batch) ∧
         t.uel.policy.systemWindow = (if mask.getLsbD 9 = true then (s.param p 4).toNat else s.uel.policy.systemWindow) ∧
         t.uel.policy.serviceWindow =
           (if mask.getLsbD 10 = true then ((s.param p 5).extractLsb' 0 20).toNat else s.uel.policy.serviceWindow)))

/-! ### Report links -/

/-- R123, R142: CONFIGURE_CHANNEL of a DOWN link with an allowed geometry that the channel's entries and ranges fit installs the
geometry, keeps a cursor that lies within it and moves any other to rank 0, bank 0, row 0; nothing else changes and no flag but
the done flag is set. The refusals come in the rule's order. That a parameter with a word of its own is the whole word is the
reading of log entry 10. -/
def Obligations.ConfigureChannelInstallsGeometry : Prop :=
  ∀ (p : Port) (s : State), s.Takes p 1 →
    (8 ≤ (s.param p 0).toNat → exec .configureChannel s = .next (s.withRefusal p .badParam)) ∧
    (∀ ch : Chan, s.param p 0 = num ch.val →
      let g : Geometry := ⟨(s.param p 1).toNat, (s.param p 2).toNat, (s.param p 3).toNat⟩
      (g.allowed = false → exec .configureChannel s = .next (s.withRefusal p .badParam)) ∧
      (g.allowed = true → (s.link ch).state ≠ .down → exec .configureChannel s = .next (s.withRefusal p .stateConflict)) ∧
      (g.allowed = true → (s.link ch).state = .down →
        ((∃ i e, s.entry i = some e ∧ e.key.channel = ch ∧ e.compatible g = false) ∨
          (∃ i a, s.retired i = some a ∧ a.range.channel = ch ∧ a.range.compatible (s.geometry ch) g = false)) →
        exec .configureChannel s = .next (s.withRefusal p .stateConflict)) ∧
      (g.allowed = true → (s.link ch).state = .down →
        (∀ i e, s.entry i = some e → e.key.channel = ch → e.compatible g = true) →
        (∀ i a, s.retired i = some a → a.range.channel = ch → a.range.compatible (s.geometry ch) g = true) →
        ∃ t : State, exec .configureChannel s = .next (t.withOk p []) ∧
          t = { s with links := t.links, scrubs := t.scrubs } ∧
          t.link ch = { s.link ch with geometry := g } ∧
          t.scrub ch = { s.scrub ch with cursor := (t.scrub ch).cursor } ∧
          (t.scrub ch).cursor =
            (if g.admits (s.scrub ch).cursor.rank (s.scrub ch).cursor.bank (s.scrub ch).cursor.row = true
             then (s.scrub ch).cursor else ⟨0, 0, 0⟩) ∧
          ∀ c, c ≠ ch → t.link c = s.link c ∧ t.scrub c = s.scrub c))

/-- R109, R110, R122: LINK_ENABLE of a DOWN link and RESYNC_LINK of a FAILED one enter SYNCING: no credit, no run of check failures,
the first attempt with 50 ms, one SYNC_REQUEST in place of any that waits, LINK_CHANGE set, and the new state (1) returned;
nothing else changes. The premise that no RUNNING verify job is on the channel holds in every lawful state (R151). R113:
RESYNC_LINK of an ACTIVE link makes the departure and enters SYNCING with one SYNC_REQUEST waiting, and keeps the intake queues.
A RUNNING verify job of the channel is aborted with reason LINK, with its entry IDLE and its result kept (R155, R156). That one
SYNC_REQUEST replaces another that waits is the reading of log entry 8. That a parameter with a word of its own is the whole
word is the reading of log entry 10. That no further job of the channel becomes RUNNING at a departure is the reading of log
entry 6. -/
def Obligations.LinkEnableAndResync : Prop :=
  (∀ (p : Port) (ch : Chan) (s : State), s.param p 0 = num ch.val → (∀ j, s.verify.jobs.head? = some j → j.channel ≠ ch) →
     let t : State := ({ s with
         links := s.links.modify ch (fun l => { l with
           state := .syncing, outstanding := 0, awaiting := 0, checkFailures := 0, attempts := 1, attemptTimer := some 50 })
         txs := s.txs.modify ch (fun t => { t with waiting := t.waiting.filter (fun f => !f.isSync) ++ [.syncRequest] })
         events := { s.events with flags := s.events.flags ||| EventFlag.linkChange.mask } } : State)
     (s.Takes p 2 → (s.link ch).state = .down → exec .linkEnable s = .next (t.withOk p [1])) ∧
     (s.Takes p 4 → (s.link ch).state = .failed → exec .resyncLink s = .next (t.withOk p [1]))) ∧
  (∀ (p : Port) (ch : Chan) (s : State), s.Takes p 4 → s.param p 0 = num ch.val → (s.link ch).state = .active →
     ∃ t : State, exec .resyncLink s = .next (t.withOk p [1]) ∧ Departed s t ch ∧
       (t.link ch).state = .syncing ∧ (t.link ch).attempts = 1 ∧ (t.link ch).attemptTimer = some 50 ∧
       (t.txs.get ch).waiting = [.syncRequest] ∧ (t.txs.get ch).sending = (s.txs.get ch).sending ∧ t.queues = s.queues ∧
       (t.scrub ch).counters = (s.scrub ch).counters)

/-- R109, R121, R122: a link command with a channel above 7 is refused with BAD_PARAM; LINK_ENABLE of a link that is not DOWN and
RESYNC_LINK of one that is DOWN or SYNCING are refused with STATE_CONFLICT; LINK_DISABLE of a DOWN link completes with OK and 0
reports discarded. R143: a SCRUB_CONTROL of any action with a channel above 7 is refused with BAD_PARAM. R53: REJECT_RETIRE and
REMOVE_RETIRE of an index above 31 are refused with BAD_PARAM. None of these has another effect. That a parameter with a word of
its own is the whole word is the reading of log entry 10. -/
def Obligations.ChannelAndIndexRefusals : Prop :=
  (∀ (p : Port) (s : State),
     (8 ≤ (s.param p 0).toNat →
       (s.Takes p 2 → exec .linkEnable s = .next (s.withRefusal p .badParam)) ∧
       (s.Takes p 3 → exec .linkDisable s = .next (s.withRefusal p .badParam)) ∧
       (s.Takes p 4 → exec .resyncLink s = .next (s.withRefusal p .badParam))) ∧
     (∀ ch : Chan, s.param p 0 = num ch.val →
       (s.Takes p 2 → (s.link ch).state ≠ .down → exec .linkEnable s = .next (s.withRefusal p .stateConflict)) ∧
       (s.Takes p 4 → (s.link ch).state = .down ∨ (s.link ch).state = .syncing →
         exec .resyncLink s = .next (s.withRefusal p .stateConflict)) ∧
       (s.Takes p 3 → (s.link ch).state = .down → exec .linkDisable s = .next (s.withOk p [0])))) ∧
  (∀ (p : Port) (s : State), 8 ≤ field (s.param p 0) 3 0 →
     (s.TakesAction p 0 → exec .scrubStart s = .next (s.withRefusal p .badParam)) ∧
     (s.TakesAction p 1 → exec .scrubStop s = .next (s.withRefusal p .badParam)) ∧
     (s.TakesAction p 2 → exec .setCursor s = .next (s.withRefusal p .badParam)) ∧
     (s.TakesAction p 3 → exec .setPacing s = .next (s.withRefusal p .badParam)) ∧
     (s.TakesAction p 4 → exec .setHoldPolicy s = .next (s.withRefusal p .badParam)) ∧
     (s.TakesAction p 5 → exec .setTimeout s = .next (s.withRefusal p .badParam))) ∧
  (∀ (p : Port) (s : State), 32 ≤ field (s.param p 0) 15 0 → s.engine.authority.admits p = true →
     (s.Takes p 36 → exec .rejectRetire s = .next (s.withRefusal p .badParam)) ∧
     (s.Takes p 37 → exec .removeRetire s = .next (s.withRefusal p .badParam)))

/-- R86, R104, R113, R121: LINK_DISABLE of a link that is not DOWN takes it DOWN: the effects of a departure, no attempt, a
transmitter that is cut off, and every report of the channel's queue discarded, counted and returned as the number discarded. A
RUNNING verify job of the channel is aborted with reason LINK, with its entry IDLE and its result kept (R155, R156). The
injection slot, the CET entries' keys and counts, the list and the UEL are unchanged. That a parameter with a word of its own is
the whole word is the reading of log entry 10. That no further job of the channel becomes RUNNING at a departure is the reading
of log entry 6. -/
def Obligations.LinkDisableDiscards : Prop :=
  ∀ (p : Port) (ch : Chan) (s : State), s.Takes p 3 → s.param p 0 = num ch.val → (s.link ch).state ≠ .down →
    ∃ t : State, exec .linkDisable s = .next (t.withOk p [num (s.queues.get ch).length]) ∧ Departed s t ch ∧
      (t.link ch).state = .down ∧ (t.link ch).attempts = 0 ∧ (t.link ch).attemptTimer = none ∧ t.txs.get ch = ⟨[], none⟩ ∧
      (t.link ch).counters = { (s.link ch).counters with
        discarded := satAdd (s.link ch).counters.discarded (s.queues.get ch).length } ∧
      (t.scrub ch).counters = (s.scrub ch).counters ∧ t.queues.get ch = [] ∧ (∀ c, c ≠ ch → t.queues.get c = s.queues.get c) ∧
      t.intake = s.intake ∧ t.retire = s.retire ∧ t.uel = s.uel ∧
      (∀ i, (t.entry i).map (fun e => (e.key, e.count, e.result, e.link)) =
        (s.entry i).map (fun e => (e.key, e.count, e.result, e.link)))

/-- R112, R118: a SYNC that passes the check makes a SYNCING link ACTIVE: the attempt ends, the next number is expected, the grant
is 6 minus the occupancy, sent as one CREDIT unless it is 0, and LINK_CHANGE is set. Nothing else changes. R104, R119, R141: a
SYNC in ACTIVE restarts the accounts and leaves the link ACTIVE: the waiting CREDIT and SCRUB_REQUEST frames are withdrawn,
every tag is IDLE, a hold that was set is over with its ceiling and a DRAINING or HELD patrol RUNNING again, the grant is 6
minus the occupancy in one CREDIT unless it is 0, and LINK_CHANGE is not set by it; the queues are kept. R153: a verify read
that it abandons is the end of that read without an answer, counted in the head job when it owns the record
(VerifyReadsAreCounted); nothing else changes. -/
def Obligations.SyncStartsTheCount : Prop :=
  (∀ (ch : Chan) (seq : BitVec 8) (s : State), s.rst = false → (s.link ch).state = .syncing →
     let grant := 6 - (s.queues.get ch).length
     ∃ t, exec (.sync ch seq) s = .next t ∧
       t = { s with
         links := s.links.modify ch (fun l => { l with
           state := .active, attempts := 0, attemptTimer := none, expected := seq + 1, awaiting := 0, outstanding := grant
           checkFailures := 0, counters := { l.counters with accepted := satInc l.counters.accepted } })
         txs := t.txs
         events := { s.events with flags := s.events.flags ||| EventFlag.linkChange.mask } } ∧
       (∀ c, c ≠ ch → t.txs.get c = s.txs.get c) ∧ (t.txs.get ch).sending = (s.txs.get ch).sending ∧
       (grant = 0 → (t.txs.get ch).waiting = (s.txs.get ch).waiting) ∧
       (1 ≤ grant → (∀ f ∈ (s.txs.get ch).waiting, f = .syncRequest) →
         (t.txs.get ch).waiting = (s.txs.get ch).waiting ++ [.credit grant])) ∧
  (∀ (ch : Chan) (seq : BitVec 8) (s : State), s.rst = false → (s.link ch).state = .active →
     let grant := 6 - (s.queues.get ch).length
     ∃ t, exec (.sync ch seq) s = .next t ∧
       t.link ch = { s.link ch with
         expected := seq + 1, awaiting := 0, outstanding := grant, checkFailures := 0
         counters := { (s.link ch).counters with
           accepted := satInc (s.link ch).counters.accepted, restarts := satInc (s.link ch).counters.restarts } } ∧
       (t.txs.get ch).waiting = (s.txs.get ch).waiting.filter DownFrame.isSync ++ (if grant = 0 then [] else [.credit grant]) ∧
       (∀ tag, (t.scrub ch).tags.get tag = none) ∧ (t.scrub ch).timeoutRun = 0 ∧ (t.scrub ch).holdFlag = false ∧
       (t.scrub ch).cursor = (s.scrub ch).cursor ∧ (t.scrub ch).nextNumber = (s.scrub ch).nextNumber ∧
       t.scrub ch = { s.scrub ch with
         tags := (t.scrub ch).tags
         timeoutRun := 0
         holdFlag := false
         ceilingTimer := (if (s.scrub ch).holdFlag = true then none else (s.scrub ch).ceilingTimer)
         patrol := (if (s.scrub ch).holdFlag = true ∧ ((s.scrub ch).patrol = .draining ∨ (s.scrub ch).patrol = .held)
           then .running else (s.scrub ch).patrol) } ∧
       (s.RecordLaw → t.verify.records.get ch = none) ∧
       (s.verify.records.get ch = none → t.verify = s.verify ∧ t.cet = s.cet ∧ t.retire = s.retire ∧ t.events = s.events) ∧
       (∀ tag q owned, (s.scrub ch).tags.get tag = some q → q.kind = .verify →
         s.verify.records.get ch = some ⟨tag, q.number, owned⟩ →
         let ended := s.endRead ch tag q.number (some .noAnswer)
         t.verify = ended.verify ∧ t.cet = ended.cet ∧ t.retire = ended.retire ∧ t.events = ended.events) ∧
       t = { s with
         links := t.links, txs := t.txs, scrubs := t.scrubs, verify := t.verify, cet := t.cet, retire := t.retire
         events := t.events } ∧
       t.queues = s.queues ∧ t.flagged .linkChange = s.flagged .linkChange ∧
       (∀ c, c ≠ ch → t.link c = s.link c ∧ t.txs.get c = s.txs.get c ∧ t.scrub c = s.scrub c))

/-- R115 to R118: an ERROR or SCRUB_REPLY frame of distance 0 to 127 that arrives on an ACTIVE link is accepted and counted. With a
credit outstanding it spends one and the report joins the tail of the queue of the channel; with none it is a credit violation,
counted and flagged, and the queue is unchanged. A gap adds its size to the lost counter and sets REPORTS_LOST. A frame of
unknown kind of distance 0 to 127 has its number taken and is counted as malformed; any frame but a SYNC whose distance is 128
to 255 is counted as a duplicate and leaves the expected number. Each breaks the run of check failures, and nothing else
changes. -/
def Obligations.SequenceTestInActive : Prop :=
  (∀ (ch : Chan) (seq : BitVec 8) (r : ErrorReport) (q : ScrubReply) (s : State), s.rst = false → (s.link ch).state = .active →
     s.passesSeq ch seq →
     let d := (seq - (s.link ch).expected).toNat
     let joined := fun (x : Report) => ({ s with
       links := s.links.modify ch (fun l =>
         { l.heard seq d with
           outstanding := l.outstanding - 1
           counters := { (l.heard seq d).counters with accepted := satInc l.counters.accepted } })
       queues := s.queues.modify ch (fun w => w ++ [x])
       events := s.events.heard d } : State)
     let violated : State := { s with
       links := s.links.modify ch (fun l =>
         { l.heard seq d with
           counters := { (l.heard seq d).counters with
             accepted := satInc l.counters.accepted, creditViolations := satInc l.counters.creditViolations } })
       events := { s.events.heard d with flags := (s.events.heard d).flags ||| EventFlag.creditViolation.mask } }
     (1 ≤ (s.link ch).outstanding →
       exec (.error ch seq r) s = .next (joined (.error r)) ∧ exec (.scrubReply ch seq q) s = .next (joined (.reply q))) ∧
     ((s.link ch).outstanding = 0 →
       exec (.error ch seq r) s = .next violated ∧ exec (.scrubReply ch seq q) s = .next violated)) ∧
  (∀ (ch : Chan) (seq : BitVec 8) (kind : Byte) (r : ErrorReport) (q : ScrubReply) (s : State), s.rst = false →
     (s.link ch).state = .active → upstreamKind kind = false →
     let d := (seq - (s.link ch).expected).toNat
     let duplicate : State := { s with links := s.links.modify ch (fun l =>
       { l with checkFailures := 0, counters := { l.counters with duplicates := satInc l.counters.duplicates } }) }
     (d ≤ 127 → exec (.unknownKindFrame ch seq kind) s = .next { s with
       links := s.links.modify ch (fun l =>
         { l.heard seq d with counters := { (l.heard seq d).counters with malformed := satInc l.counters.malformed } })
       events := s.events.heard d }) ∧
     (128 ≤ d → exec (.unknownKindFrame ch seq kind) s = .next duplicate ∧ exec (.error ch seq r) s = .next duplicate ∧
       exec (.scrubReply ch seq q) s = .next duplicate ∧ exec (.hold ch seq) s = .next duplicate ∧
       exec (.resume ch seq) s = .next duplicate))

/-- R108: an arrival at a DOWN link changes nothing. In SYNCING and FAILED a frame that fails the check is counted and moves
nothing; any other frame, but a SYNC in SYNCING, is counted as out of state and discarded. R113, R114: in ACTIVE a frame that
fails the check is counted and lengthens the run of failures; the fourth in a row fails the link with the effects of a
departure, and keeps the intake queues. A RUNNING verify job of the channel is aborted with reason LINK, with its entry IDLE and
its result kept (R155, R156). That no further job of the channel becomes RUNNING at a departure is the reading of log entry 6.
-/
def Obligations.ArrivalsOutsideActiveAndFailures : Prop :=
  (∀ (ch : Chan) (seq : BitVec 8) (kind : Byte) (r : ErrorReport) (q : ScrubReply) (s : State), s.rst = false →
     upstreamKind kind = false →
     let frames := [Instr.error ch seq r, .scrubReply ch seq q, .hold ch seq, .resume ch seq, .unknownKindFrame ch seq kind]
     let outOfState : State := { s with links := s.links.modify ch (fun l =>
       { l with counters := { l.counters with outOfState := satInc l.counters.outOfState } }) }
     ((s.link ch).state = .down → ∀ c ∈ .frameCheckFailure ch :: .sync ch seq :: frames, exec c s = .next s) ∧
     ((s.link ch).state = .syncing ∨ (s.link ch).state = .failed →
       (∀ c ∈ frames, exec c s = .next outOfState) ∧
       exec (.frameCheckFailure ch) s = .next { s with links := s.links.modify ch (fun l =>
         { l with counters := { l.counters with checkFailures := satInc l.counters.checkFailures } }) }) ∧
     ((s.link ch).state = .failed → exec (.sync ch seq) s = .next outOfState)) ∧
  (∀ (ch : Chan) (s : State), s.rst = false → (s.link ch).state = .active →
     ((s.link ch).checkFailures ≤ 2 → exec (.frameCheckFailure ch) s = .next { s with
       links := s.links.modify ch (fun l => { l with
         checkFailures := l.checkFailures + 1
         counters := { l.counters with checkFailures := satInc l.counters.checkFailures } }) }) ∧
     ((s.link ch).checkFailures = 3 → ∃ t, exec (.frameCheckFailure ch) s = .next t ∧ Departed s t ch ∧
       (t.link ch).state = .failed ∧ t.queues = s.queues ∧ (t.scrub ch).counters = (s.scrub ch).counters ∧
       (t.link ch).counters = { (s.link ch).counters with checkFailures := satInc (s.link ch).counters.checkFailures }))

/-- R111: the expiry of the sync attempt timer in SYNCING repeats the request at attempts 1 and 2 and fails the link at attempt 3
with LINK_CHANGE and no request; nothing else changes. That the repeated SYNC_REQUEST replaces one that still waits is the
reading of log entry 8. Without an expiry to take, nothing happens (log entry 2). A timer at 0 is one whose expiry waits to be
taken (log entry 4). -/
def Obligations.SyncAttemptsThenFailure : Prop :=
  ∀ (ch : Chan) (s : State), s.rst = false →
    ((s.link ch).state = .syncing → (s.link ch).attemptTimer = some 0 →
      ((s.link ch).attempts = 1 ∨ (s.link ch).attempts = 2 → exec (.syncAttemptExpiry ch) s = .next { s with
        links := s.links.modify ch (fun l => { l with attempts := l.attempts + 1, attemptTimer := some 50 })
        txs := s.txs.modify ch (fun t => { t with waiting := t.waiting.filter (fun f => !f.isSync) ++ [.syncRequest] }) }) ∧
      ((s.link ch).attempts = 3 → exec (.syncAttemptExpiry ch) s = .next { s with
        links := s.links.modify ch (fun l => { l with state := .failed, attempts := 0, attemptTimer := none })
        events := { s.events with flags := s.events.flags ||| EventFlag.linkChange.mask } })) ∧
    ((s.link ch).state ≠ .syncing ∨ (s.link ch).attemptTimer ≠ some 0 → exec (.syncAttemptExpiry ch) s = .next s)

/-- R104: the transmitter of a link that is not DOWN begins the frame that was handed first and holds it until it finishes it, one
frame at a time; nothing else changes. That the row of a transmission that cannot begin, in DOWN, behind another frame or with
nothing waiting, is the identity is the choice of the model (log entry 2). -/
def Obligations.TransmitterSendsInOrder : Prop :=
  ∀ (ch : Chan) (s : State), s.rst = false →
    (∀ f rest, (s.link ch).state ≠ .down → s.txs.get ch = ⟨f :: rest, none⟩ →
      exec (.frameTransmission ch) s = .next { s with txs := s.txs.set ch ⟨rest, some f⟩ }) ∧
    (((s.link ch).state = .down ∨ (s.txs.get ch).sending ≠ none ∨ (s.txs.get ch).waiting = []) →
      exec (.frameTransmission ch) s = .next s) ∧
    (∀ f waiting, s.txs.get ch = ⟨waiting, some f⟩ →
      exec (.frameTransmissionEnd ch) s = .next { s with txs := s.txs.set ch ⟨waiting, none⟩ })

/-! ### Patrol scrubbing -/

/-- R117, R138, R139, R140: an accepted HOLD of distance `d` sets a clear hold flag, starts a nonzero ceiling and makes a RUNNING
patrol HELD under IMMEDIATE, and under SEGMENT HELD at a multiple of the segment size and DRAINING elsewhere; while the flag is
set it is ignored. An accepted RESUME clears a set flag, cancels the ceiling and makes a DRAINING or HELD patrol RUNNING; while
the flag is clear it is ignored. Neither consumes a credit, and nothing else changes. -/
def Obligations.HoldAndResume : Prop :=
  ∀ (ch : Chan) (seq : BitVec 8) (s : State), s.rst = false → (s.link ch).state = .active → s.passesSeq ch seq →
    let d := (seq - (s.link ch).expected).toNat
    let c := s.scrub ch
    let accepted := fun (c' : Scrub) => ({ s with
      links := s.links.modify ch (fun l =>
        { l.heard seq d with counters := { (l.heard seq d).counters with accepted := satInc l.counters.accepted } })
      scrubs := s.scrubs.set ch c'
      events := s.events.heard d } : State)
    (c.holdFlag = false → exec (.hold ch seq) s = .next (accepted { c with
      holdFlag := true
      ceilingTimer := (if c.ceiling = 0 then none else some c.ceiling)
      patrol := (if c.patrol = .running then
          (if c.holdPolicy = .immediate ∨ c.cursor.row.val % c.segment = 0 then .held else .draining)
        else c.patrol) })) ∧
    (c.holdFlag = true → exec (.hold ch seq) s = .next (accepted c)) ∧
    (c.holdFlag = true → exec (.resume ch seq) s = .next (accepted { c with
      holdFlag := false
      ceilingTimer := none
      patrol := (if c.patrol = .draining ∨ c.patrol = .held then .running else c.patrol) })) ∧
    (c.holdFlag = false → exec (.resume ch seq) s = .next (accepted c))

/-- R140: the expiry of the hold ceiling ends the hold, makes a DRAINING or HELD patrol RUNNING and sets HOLD_OVERRUN. R130: the
expiry of the pacing timer stops it and makes the step due, in every patrol state. Nothing else changes. R120, R136, R137: the
expiry of a reply timer frees its tag, withdraws its waiting frame and counts the timeout. For a PATROL request it counts the
row too; below the third in a row nothing else changes, and the third fails the link with the effects of a departure, a RUNNING
verify job of the channel aborted with reason LINK among them (R155, R156). For a VERIFY request the verify queue is told of a
read without an answer, and the third in a row then fails the link from the state that this leaves. A timer that has not run out
has no expiry to take, and the row then changes nothing (log entry 2). That no further job of the channel becomes RUNNING at a
departure is the reading of log entry 6. A timer at 0 is one whose expiry waits to be taken (log entry 4). -/
def Obligations.ScrubContextExpiries : Prop :=
  (∀ (ch : Chan) (s : State), s.rst = false →
     ((s.scrub ch).ceilingTimer = some 0 → exec (.holdCeilingExpiry ch) s = .next { s with
       scrubs := s.scrubs.modify ch (fun c => { c with
         holdFlag := false
         ceilingTimer := none
         patrol := (if c.patrol = .draining ∨ c.patrol = .held then .running else c.patrol) })
       events := { s.events with flags := s.events.flags ||| EventFlag.holdOverrun.mask } }) ∧
     ((s.scrub ch).ceilingTimer ≠ some 0 → exec (.holdCeilingExpiry ch) s = .next s) ∧
     ((s.scrub ch).pacingTimer = some 0 → exec (.pacingExpiry ch) s = .next { s with
       scrubs := s.scrubs.modify ch (fun c => { c with stepDue := true, pacingTimer := none }) }) ∧
     ((s.scrub ch).pacingTimer ≠ some 0 → exec (.pacingExpiry ch) s = .next s)) ∧
  (∀ (ch : Chan) (tag : Tag) (s : State), s.rst = false →
     (∀ q, (s.scrub ch).tags.get tag = some q → q.timer = 0 → q.kind = .patrol →
       let counted := fun (c : Scrub) => { c.counters with
         timeouts := satInc c.counters.timeouts, skippedFailed := satInc c.counters.skippedFailed }
       ((s.scrub ch).timeoutRun ≤ 1 → exec (.replyTimeout ch tag) s = .next { s with
         scrubs := s.scrubs.modify ch (fun c => { c with
           tags := c.tags.set tag none, timeoutRun := c.timeoutRun + 1, counters := counted c })
         txs := s.txs.modify ch (fun t => { t with waiting := t.waiting.filter (fun f => !f.isRequestOf tag) }) }) ∧
       ((s.scrub ch).timeoutRun = 2 → ∃ t, exec (.replyTimeout ch tag) s = .next t ∧ Departed s t ch ∧
         (t.link ch).state = .failed ∧ (t.scrub ch).counters = counted (s.scrub ch) ∧ t.queues = s.queues)) ∧
     (∀ q, (s.scrub ch).tags.get tag = some q → q.timer = 0 → q.kind = .verify → (s.scrub ch).timeoutRun ≤ 1 →
       exec (.replyTimeout ch tag) s = .next (({ s with
         scrubs := s.scrubs.modify ch (fun c => { c with
           tags := c.tags.set tag none
           timeoutRun := c.timeoutRun + 1
           counters := { c.counters with timeouts := satInc c.counters.timeouts } })
         txs := s.txs.modify ch (fun t => { t with waiting := t.waiting.filter (fun f => !f.isRequestOf tag) }) } : State).endRead
           ch tag q.number (some .noAnswer))) ∧
     (∀ q, (s.scrub ch).tags.get tag = some q → q.timer = 0 → q.kind = .verify → (s.scrub ch).timeoutRun = 2 →
       let told := ({ s with
         scrubs := s.scrubs.modify ch (fun c => { c with
           tags := c.tags.set tag none
           timeoutRun := c.timeoutRun + 1
           counters := { c.counters with timeouts := satInc c.counters.timeouts } })
         txs := s.txs.modify ch (fun t => { t with waiting := t.waiting.filter (fun f => !f.isRequestOf tag) }) } : State).endRead
           ch tag q.number (some .noAnswer)
       ∃ t, exec (.replyTimeout ch tag) s = .next t ∧ Departed told t ch ∧ (t.link ch).state = .failed ∧ t.queues = s.queues ∧
         (t.scrub ch).counters =
           { (s.scrub ch).counters with timeouts := satInc (s.scrub ch).counters.timeouts }) ∧
     ((∀ q, (s.scrub ch).tags.get tag = some q → q.timer ≠ 0) → exec (.replyTimeout ch tag) s = .next s))

/-- R143, R144: SCRUB_CONTROL START starts a STOPPED patrol in the mode carried, RUNNING or, under a hold, HELD, with a step due,
and is refused with STATE_CONFLICT otherwise; a mode code above 1 is refused with BAD_PARAM first. STOP makes every patrol
STOPPED with no step due and no pacing timer and keeps the tags and the hold. SET_CURSOR, SET_PACING, SET_HOLD_POLICY and
SET_TIMEOUT install the values carried when each lies in its range, and SET_HOLD_POLICY judges a DRAINING patrol by the new
policy and segment size; a value out of range is refused with BAD_PARAM, before the STATE_CONFLICT of a SET_CURSOR of a patrol
that is not STOPPED. Each returns the scrub state as it then stands; nothing else changes. That a parameter with a word of its
own is the whole word is the reading of log entry 10. -/
def Obligations.ScrubControlActions : Prop :=
  (∀ (p : Port) (ch : Chan) (s : State), field (s.param p 0) 3 0 = ch.val →
     (s.TakesAction p 0 →
       (∀ m : PatrolMode, s.param p 1 = num m.code →
         ((s.scrub ch).patrol = .stopped →
           let c := { s.scrub ch with
             mode := m, stepDue := true, patrol := (if (s.scrub ch).holdFlag = true then .held else .running) }
           exec .scrubStart s = .next (({ s with scrubs := s.scrubs.set ch c } : State).withOk p (scrubPage c))) ∧
         ((s.scrub ch).patrol ≠ .stopped → exec .scrubStart s = .next (s.withRefusal p .stateConflict))) ∧
       (2 ≤ (s.param p 1).toNat → exec .scrubStart s = .next (s.withRefusal p .badParam))) ∧
     (s.TakesAction p 1 →
       let c := { s.scrub ch with patrol := .stopped, pacingTimer := none, stepDue := false }
       exec .scrubStop s = .next (({ s with scrubs := s.scrubs.set ch c } : State).withOk p (scrubPage c)))) ∧
  (∀ (p : Port) (ch : Chan) (s : State), field (s.param p 0) 3 0 = ch.val →
     let c := s.scrub ch
     let done := fun (c' : Scrub) => Host.Outcome.next (φ := Fault) (ρ := Refusal)
       (({ s with scrubs := s.scrubs.set ch c' } : State).withOk p (scrubPage c'))
     let w := s.param p
     (s.TakesAction p 2 →
       (∀ k : Cursor, field (w 1) 7 4 = k.rank.val → field (w 1) 15 8 = k.bank.val → field (w 2) 19 0 = k.row.val →
         ((s.geometry ch).admits k.rank k.bank k.row = false → exec .setCursor s = .next (s.withRefusal p .badParam)) ∧
         ((s.geometry ch).admits k.rank k.bank k.row = true → c.patrol ≠ .stopped →
           exec .setCursor s = .next (s.withRefusal p .stateConflict)) ∧
         ((s.geometry ch).admits k.rank k.bank k.row = true → c.patrol = .stopped →
           exec .setCursor s = done { c with cursor := k })) ∧
       (4 ≤ field (w 1) 7 4 ∨ 32 ≤ field (w 1) 15 8 ∨ 262144 ≤ field (w 2) 19 0 →
         exec .setCursor s = .next (s.withRefusal p .badParam))) ∧
     (s.TakesAction p 3 → exec .setPacing s =
       if 1 ≤ (w 1).toNat ∧ (w 1).toNat ≤ 65535 then done { c with pacing := (w 1).toNat }
       else .next (s.withRefusal p .badParam)) ∧
     (s.TakesAction p 4 → exec .setHoldPolicy s =
       if (w 1).toNat ≤ 1 ∧ 1 ≤ (w 2).toNat ∧ (w 2).toNat ≤ 64 ∧ (w 3).toNat ≤ 65535 then
         done { c with
           holdPolicy := (if w 1 = 0 then .immediate else .segment)
           segment := (w 2).toNat
           ceiling := (w 3).toNat
           patrol := (if c.patrol = .draining ∧ (w 1 = 0 ∨ c.cursor.row.val % (w 2).toNat = 0) then .held else c.patrol) }
       else .next (s.withRefusal p .badParam)) ∧
     (s.TakesAction p 5 → exec .setTimeout s =
       if 1 ≤ (w 1).toNat ∧ (w 1).toNat ≤ 255 then done { c with replyTimeout := (w 1).toNat }
       else .next (s.withRefusal p .badParam)))

/-- R129: the cursor after a visit, as the place of a row in the order of a pass: row fastest, then bank, then rank. Within a
geometry the advance goes to the next place, and from the last place to the first, which completes the pass. -/
def Obligations.CursorAdvancesInPassOrder : Prop :=
  ∀ (g : Geometry) (k : Cursor), g.allowed = true → g.admits k.rank k.bank k.row = true →
    let place := fun (k : Cursor) => (k.rank.val * g.banks + k.bank.val) * g.rows + k.row.val
    g.admits (k.advance g).1.rank (k.advance g).1.bank (k.advance g).1.row = true ∧
    ((k.advance g).2 = true ↔ place k + 1 = g.ranks * g.banks * g.rows) ∧
    place (k.advance g).1 = (place k + 1) % (g.ranks * g.banks * g.rows)

/-- R129 to R133: an issue event that serves the patrol visits the row at the cursor. A row of a CONFIRMED range is skipped and
counted, and no tag is taken; any other row is requested on the lowest IDLE tag with the next number and the reply timeout, and
its SCRUB_REQUEST waits last in the transmitter; that it replaces an older request of the same tag that still waits is log entry
9. In both cases the step is used up, the pacing timer starts, the cursor advances, and a completed pass is counted and sets
SCRUB_PASS_DONE. -/
def Obligations.PatrolStepVisitsCursorRow : Prop :=
  ∀ (ch : Chan) (tag : Tag) (s : State), s.rst = false → (s.link ch).state = .active →
    (s.scrub ch).tags.get tag = none → (∀ u, u < tag → (s.scrub ch).tags.get u ≠ none) → s.verifyReady ch = none →
    ((s.scrub ch).patrol = .running ∨ (s.scrub ch).patrol = .draining) → (s.scrub ch).stepDue = true →
    let c := s.scrub ch
    let k := c.cursor
    let complete := (k.advance (s.geometry ch)).2
    ∃ t, exec (.issueEvent ch) s = .next t ∧
      t = { s with scrubs := t.scrubs, txs := t.txs, events := t.events } ∧
      (∀ x, x ≠ ch → t.scrub x = s.scrub x ∧ t.txs.get x = s.txs.get x) ∧
      (t.scrub ch).cursor = (k.advance (s.geometry ch)).1 ∧ (t.scrub ch).stepDue = false ∧
      (t.scrub ch).passes = (if complete = true then c.passes + 1 else c.passes) ∧
      t.events = { s.events with flags := t.events.flags } ∧
      t.events.flags = (if complete = true then s.events.flags ||| EventFlag.scrubPassDone.mask else s.events.flags) ∧
      (if complete = true ∧ c.mode = .singlePass then (t.scrub ch).patrol = .stopped ∧ (t.scrub ch).pacingTimer = none
       else (t.scrub ch).pacingTimer = some c.pacing ∧
        (t.scrub ch).patrol =
          (if c.patrol = .draining ∧ (k.advance (s.geometry ch)).1.row.val % c.segment = 0 then .held else c.patrol)) ∧
      ((s.lookup ch k.rank k.bank k.row).isSome = true →
        (t.scrub ch).tags = c.tags ∧ (t.scrub ch).nextNumber = c.nextNumber ∧ t.txs = s.txs ∧
        (t.scrub ch).counters = { c.counters with skippedRetired := satInc c.counters.skippedRetired }) ∧
      (s.lookup ch k.rank k.bank k.row = none →
        (t.scrub ch).tags = c.tags.set tag (some ⟨c.nextNumber, .patrol, k.rank, k.bank, k.row, c.replyTimeout⟩) ∧
        (t.scrub ch).nextNumber = c.nextNumber + 1 ∧ (t.scrub ch).counters = c.counters ∧
        (t.txs.get ch).waiting = (s.txs.get ch).waiting.filter (fun f => !f.isRequestOf tag) ++
          [.scrubRequest tag c.nextNumber .patrol k.rank k.bank k.row])

/-! ### Verify jobs -/

/-- R33, R150, R151: START_VERIFY is refused, in this order and with no other effect: an index above 127 with BAD_PARAM, a free
entry with NOT_FOUND, an entry that is not IDLE with STATE_CONFLICT, and a queue of 8 jobs with FULL. Otherwise it creates a job
with the settings in force. Behind other jobs the entry becomes QUEUED; in an empty queue the job is the head, RUNNING with its
location when the link is ACTIVE, and aborted at once with reason LINK and status IDLE when it is not. The result is the status,
the number of jobs and the generation count; nothing else changes. -/
def Obligations.StartVerifyCreatesJob : Prop :=
  (∀ (p : Port) (s : State), s.Takes p 22 →
     (128 ≤ field (s.param p 0) 15 0 → exec .startVerify s = .next (s.withRefusal p .badParam)) ∧
     (∀ i : CetIdx, field (s.param p 0) 15 0 = i.val →
       (s.entry i = none → exec .startVerify s = .next (s.withRefusal p .notFound)) ∧
       (∀ e, s.entry i = some e → e.status ≠ .idle → exec .startVerify s = .next (s.withRefusal p .stateConflict)) ∧
       (∀ e, s.entry i = some e → e.status = .idle → 8 ≤ s.verify.jobs.length →
         exec .startVerify s = .next (s.withRefusal p .full)))) ∧
  (∀ (p : Port) (i : CetIdx) (e : CetEntry) (s : State), s.Takes p 22 → field (s.param p 0) 15 0 = i.val → s.entry i = some e →
     e.status = .idle → s.verify.jobs.length < 8 →
     let job : Job := ⟨i, e.key.channel, none, s.verify.reads, s.verify.persist, 0, 0, 0, 0⟩
     let withStatus := fun (v : VerifyStatus) (jobs : List Job) => ({ s with
       cet := { s.cet with entries := s.cet.entries.set i (some { e with status := v }) }
       verify := { s.verify with jobs := jobs } } : State)
     let gen := s.cet.generation.setWidth 32
     (s.verify.jobs ≠ [] → exec .startVerify s = .next
       ((withStatus .queued (s.verify.jobs ++ [job])).withOk p [1, num (s.verify.jobs.length + 1), gen])) ∧
     (s.verify.jobs = [] → (s.link e.key.channel).state = .active → exec .startVerify s = .next
       ((withStatus .running [{ job with location := some ⟨e.key.rank, e.key.bank, e.lastRow⟩ }]).withOk p [2, 1, gen])) ∧
     (s.verify.jobs = [] → (s.link e.key.channel).state ≠ .active → exec .startVerify s = .next
       (({ s with
         verify := { s.verify with lastAbort := some (.link, i) }
         events := { s.events with flags := s.events.flags ||| EventFlag.verifyAborted.mask } } : State).withOk p [0, 0, gen])))

/-- R132, R134, R152: an issue event with the head job's read ready serves it before the patrol. Outside every CONFIRMED range a
request of kind VERIFY for the job's row is issued on the lowest IDLE tag, the channel's record takes it for the head, and the
patrol's cursor and step are unchanged; that the new SCRUB_REQUEST replaces an older one of the same tag that still waits is log
entry 9. Inside one no request is issued: the job leaves the queue, its entry returns to IDLE and VERIFY_ABORTED is set. -/
def Obligations.VerifyReadServedFirst : Prop :=
  ∀ (ch : Chan) (tag : Tag) (j : Job) (rest : List Job) (l : ReadLoc) (s : State), s.rst = false → (s.link ch).state = .active →
    (s.scrub ch).tags.get tag = none → (∀ u, u < tag → (s.scrub ch).tags.get u ≠ none) →
    s.verify.jobs = j :: rest → j.channel = ch → j.issued < j.reads → s.verify.records.get ch = none →
    (s.scrub ch).holdFlag = false → j.location = some l →
    let c := s.scrub ch
    (s.lookup ch l.rank l.bank l.row = none → exec (.issueEvent ch) s = .next { s with
      scrubs := s.scrubs.set ch { c with
        tags := c.tags.set tag (some ⟨c.nextNumber, .verify, l.rank, l.bank, l.row, c.replyTimeout⟩)
        nextNumber := c.nextNumber + 1 }
      txs := s.txs.modify ch (fun t => { t with waiting := t.waiting.filter (fun f => !f.isRequestOf tag) ++
        [.scrubRequest tag c.nextNumber .verify l.rank l.bank l.row] })
      verify := { s.verify with
        records := s.verify.records.set ch (some ⟨tag, c.nextNumber, true⟩)
        jobs := { j with issued := j.issued + 1 } :: rest } }) ∧
    ((s.lookup ch l.rank l.bank l.row).isSome = true → s.QueueLaw → ∃ t, exec (.issueEvent ch) s = .next t ∧
      t.scrubs = s.scrubs ∧ t.txs = s.txs ∧ j.cet ∉ t.verify.jobs.map Job.cet ∧ t.flagged .verifyAborted = true ∧
      (t.entry j.cet).map CetEntry.status = some .idle ∧
      (t.entry j.cet).map CetEntry.result = (s.entry j.cet).map CetEntry.result ∧
      (rest = [] → t.verify.lastAbort = some (.retired, j.cet)))

/-- R153, R154: the end of a read that the head job owns makes the channel's record absent and is counted: errored, clean or no
answer. Below R nothing else changes. The read that brings the count to R writes the outcome, the first of PERSISTENT,
INTERMITTENT, NOT_REPRODUCED and INCONCLUSIVE that applies, with the time, returns the entry to IDLE and sets VERIFY_DONE; a
PERSISTENT outcome under ON_PERSISTENT of an entry without a link then makes the proposal attempt of R22. R151: the jobs behind
it whose link is not ACTIVE are aborted in turn with reason LINK, and the first other one becomes the head, RUNNING with its
location; every entry keeps all else, and nothing else changes. A record that no job owns is dropped uncounted. -/
def Obligations.VerifyReadsAreCounted : Prop :=
  ∀ (ch : Chan) (tag : Tag) (number : BitVec 8) (x : ReadResult) (j : Job) (rest : List Job) (s : State),
    s.verify.jobs = j :: rest →
    let k : Job := { j with
      errored  := j.errored + (if x = .errored then 1 else 0)
      clean    := j.clean + (if x = .clean then 1 else 0)
      noAnswer := j.noAnswer + (if x = .noAnswer then 1 else 0) }
    let freed := s.verify.records.set ch none
    (s.verify.records.get ch = some ⟨tag, number, true⟩ → k.counted < k.reads →
      s.endRead ch tag number (some x) = { s with verify := { s.verify with records := freed, jobs := k :: rest } }) ∧
    (s.verify.records.get ch = some ⟨tag, number, false⟩ →
      s.endRead ch tag number (some x) = { s with verify := { s.verify with records := freed } }) ∧
    (s.verify.records.get ch = some ⟨tag, number, true⟩ → k.reads ≤ k.counted → j.cet ∉ rest.map Job.cet →
      ∀ e, s.entry j.cet = some e →
        let t := s.endRead ch tag number (some x)
        t.verify.records.get ch = none ∧ t.flagged .verifyDone = true ∧
        (t.entry j.cet).map CetEntry.status = some .idle ∧
        (t.entry j.cet).map CetEntry.result = some (some
          (if k.persist ≤ k.errored then .persistent
           else if 1 ≤ k.errored then .intermittent
           else if 1 ≤ k.clean then .notReproduced
           else .inconclusive, s.clock.time)) ∧
        j.cet ∉ t.verify.jobs.map Job.cet) ∧
    (s.verify.records.get ch = some ⟨tag, number, true⟩ → k.reads ≤ k.counted → ∀ e, s.entry j.cet = some e →
      let outcome : VerifyOutcome :=
        if k.persist ≤ k.errored then .persistent
        else if 1 ≤ k.errored then .intermittent
        else if 1 ≤ k.clean then .notReproduced
        else .inconclusive
      let ended : CetEntry := { e with result := some (outcome, s.clock.time), status := .idle }
      let written : State := { s with
        cet := { s.cet with entries := s.cet.entries.set j.cet (some ended) }
        verify := { s.verify with records := freed, jobs := rest }
        events := { s.events with flags := s.events.flags ||| EventFlag.verifyDone.mask } }
      let proposed : State :=
        if outcome = .persistent ∧ s.cet.policy.proposeMode = .onPersistent ∧ e.link = none then written.proposalAttempt j.cet
        else written
      let t := s.endRead ch tag number (some x)
      HeadChange (s.passedOver rest) (s.fromHead rest) proposed t ∧ t.verify.records = freed ∧
        t = { proposed with cet := t.cet, verify := t.verify, events := { proposed.events with flags := t.events.flags } })

/-! ### Intake and classification -/

/-- R86, R89, R90: while a source holds a report, a take serves a non-empty source: under ROTATING the first behind the last-served
source, under FIXED the first from channel 0 on; it becomes the last-served source, the head report of the chosen queue leaves
it and the other queues are unchanged, or the injection slot is emptied. While every source is empty no take occurs; that the
row is then the identity is log entry 2. R118: a take from the queue of an ACTIVE link adds one credit awaiting return, and
returns all of them as outstanding when they reach the batch or the queue is left empty; of any other link it changes no credit.
Every other link is unchanged. R91: the take of a queue is then the classification of its head report, in the state with the
credits so counted; ReportRoutes and ScrubReplyRoutes say what that does. -/
def Obligations.TakeServesSourceInOrder : Prop :=
  (∀ s : State, s.rst = false →
     ((∀ x, s.nonEmpty x = false) → exec .intakeTake s = .next s) ∧
     ((∃ x, s.nonEmpty x = true) → ∃ t x, exec .intakeTake s = .next t ∧ s.nonEmpty x = true ∧ t.intake.lastServed = x ∧
       (s.intake.mode = .rotating → ∀ y, s.nonEmpty y = true →
         Source.turns s.intake.lastServed x ≤ Source.turns s.intake.lastServed y) ∧
       (s.intake.mode = .fixed → ∀ y, s.nonEmpty y = true → x.place ≤ y.place) ∧
       t.intake.mode = s.intake.mode ∧
       (∀ c, t.queues.get c = if x = .channel c then (s.queues.get c).tail else s.queues.get c) ∧
       t.intake.slot = (if x = .slot then none else s.intake.slot))) ∧
  (∀ (ch : Chan) (r : Report) (rest : List Report) (s : State), s.rst = false → s.choose = some (.channel ch) →
     s.queues.get ch = r :: rest →
     let l := s.link ch
     let taken : State := { s with intake := { s.intake with lastServed := .channel ch }, queues := s.queues.set ch rest }
     (l.state ≠ .active → exec .intakeTake s = .next (taken.classify ch r)) ∧
     (l.state = .active → (s.batch ≤ l.awaiting + 1 ∨ rest = []) → exec .intakeTake s = .next (({ taken with
       links := s.links.modify ch (fun l => { l with outstanding := l.outstanding + (l.awaiting + 1), awaiting := 0 })
       txs := s.txs.modify ch (fun x => x.sendCredit (l.awaiting + 1)) } : State).classify ch r)) ∧
     (l.state = .active → l.awaiting + 1 < s.batch → rest ≠ [] → exec .intakeTake s = .next (({ taken with
       links := s.links.modify ch (fun l => { l with awaiting := l.awaiting + 1 }) } : State).classify ch r)) ∧
     ∃ t, exec .intakeTake s = .next t ∧
       (∀ c, c ≠ ch → t.link c = s.link c) ∧
       (l.state ≠ .active → t.link ch = l ∧ t.txs = s.txs) ∧
       (l.state = .active → (s.batch ≤ l.awaiting + 1 ∨ rest = []) →
         t.link ch = { l with outstanding := l.outstanding + (l.awaiting + 1), awaiting := 0 } ∧
         t.txs = s.txs.modify ch (fun x => x.sendCredit (l.awaiting + 1))) ∧
       (l.state = .active → l.awaiting + 1 < s.batch → rest ≠ [] →
         t.link ch = { l with awaiting := l.awaiting + 1 } ∧ t.txs = s.txs))

/-- R87, R91 to R94, R100: a report goes to exactly one place: outside the geometry of its channel to the malformed-report counter
of that channel; corrected, inside a CONFIRMED range, to the suppressed count of that range; corrected, outside every CONFIRMED
range, to the CET as a record with its origin and the time of the take; uncorrectable to the UEL with the answer of the lookup.
The first part says it of a take of the injection slot, with origin INJECTED, and the second of the classification of an ERROR
report of a queue, with the origin of the report, which TakeServesSourceInOrder shows to be what a take of that queue does. -/
def Obligations.ReportRoutes : Prop :=
  (∀ (r : InjectedReport) (s : State), s.rst = false → s.choose = some .slot → s.intake.slot = some r →
     let l := r.loc
     let s' : State := { s with intake := { s.intake with slot := none, lastServed := .slot } }
     let inside := (s.geometry l.channel).admits l.rank l.bank l.row
     (inside = false → exec .intakeTake s = .next { s' with
       classifier := s.classifier.modify l.channel (fun c => { c with malformed := satInc c.malformed }) }) ∧
     (∀ (c : CeClass) (i : RetIdx) (a : RetEntry), inside = true → r.cls = (match c with | .bit => .bit | .symbol => .symbol) →
       s.lookup l.channel l.rank l.bank l.row = some i → s.retired i = some a →
       exec .intakeTake s = .next { s' with
         retire := { s.retire with entries := s.retire.entries.set i (some { a with suppressed := satInc a.suppressed }) } }) ∧
     (∀ c : CeClass, inside = true → r.cls = (match c with | .bit => .bit | .symbol => .symbol) →
       s.lookup l.channel l.rank l.bank l.row = none →
       exec .intakeTake s = .next (s'.takeCe ⟨l, c, .injected, s.clock.time⟩)) ∧
     (∀ c : UeClass, inside = true → r.cls = (match c with | .uncorrectable => .uncorrectable | .poison => .poison) →
       exec .intakeTake s = .next (s'.appendUe ⟨l, c, .injected, (s.lookup l.channel l.rank l.bank l.row).isSome⟩))) ∧
  (∀ (ch : Chan) (r : ErrorReport) (s : State),
     let l : Loc := ⟨ch, r.rank, r.bank, r.row, r.column⟩
     let origin : Origin := match r.origin with | .demand => .demand | .controller => .controller
     let inside := (s.geometry ch).admits l.rank l.bank l.row
     (inside = false → s.classify ch (.error r) = { s with
       classifier := s.classifier.modify ch (fun c => { c with malformed := satInc c.malformed }) }) ∧
     (∀ (c : CeClass) (i : RetIdx) (a : RetEntry), inside = true → r.cls = (match c with | .bit => .bit | .symbol => .symbol) →
       s.lookup ch l.rank l.bank l.row = some i → s.retired i = some a → s.classify ch (.error r) = { s with
         retire := { s.retire with entries := s.retire.entries.set i (some { a with suppressed := satInc a.suppressed }) } }) ∧
     (∀ c : CeClass, inside = true → r.cls = (match c with | .bit => .bit | .symbol => .symbol) →
       s.lookup ch l.rank l.bank l.row = none → s.classify ch (.error r) = s.takeCe ⟨l, c, origin, s.clock.time⟩) ∧
     (∀ c : UeClass, inside = true → r.cls = (match c with | .uncorrectable => .uncorrectable | .poison => .poison) →
       s.classify ch (.error r) = s.appendUe ⟨l, c, origin, (s.lookup ch l.rank l.bank l.row).isSome⟩))

/-- R95 to R97, R100: the classification of a scrub reply, which TakeServesSourceInOrder shows to be what a take of its queue does.
A reply whose tag is IDLE or BUSY with another number is stale: it is counted and changes nothing else. One that answers a
PATROL request frees the tag, ends the run of timeouts, and is routed by its result: CLEAN no further, REFUSED and malformed to
the skipped-row counter (a malformed one to the malformed-report counter too), CORRECTED to the suppressed count or the CET,
UNCORRECTABLE to the UEL, at the row of the request and the column of the reply. R98, R153: one that answers a VERIFY request
frees its tag and ends the run of timeouts; the verify queue is told the end of the read: clean, errored, or no answer for a
REFUSED or a malformed reply. It makes no CE record; an UNCORRECTABLE reply that is not malformed is also appended to the UEL
with origin VERIFY. That the verify queue acts before the UEL is the reading of log entry 19. -/
def Obligations.ScrubReplyRoutes : Prop :=
  (∀ (ch : Chan) (r : ScrubReply) (s : State),
     ((∀ q, (s.scrub ch).tags.get r.tag = some q → q.number ≠ r.request) → s.classify ch (.reply r) = { s with
       classifier := s.classifier.modify ch (fun c => { c with stale := satInc c.stale }) }) ∧
     (∀ q, (s.scrub ch).tags.get r.tag = some q → q.number = r.request → q.kind = .patrol →
       let freed := fun (c : Scrub) => { c with tags := c.tags.set r.tag none, timeoutRun := 0 }
       let skipped := fun (c : Scrub) =>
         { freed c with counters := { c.counters with skippedFailed := satInc c.counters.skippedFailed } }
       let s' : State := { s with scrubs := s.scrubs.modify ch freed }
       let l : Loc := ⟨ch, q.rank, q.bank, q.row, r.column⟩
       (r.result = .clean → s.classify ch (.reply r) = s') ∧
       (r.result = .refused → s.classify ch (.reply r) = { s with scrubs := s.scrubs.modify ch skipped }) ∧
       (r.result = .corrected ∨ r.result = .uncorrectable → r.errorCount = 0 → s.classify ch (.reply r) = { s with
         scrubs := s.scrubs.modify ch skipped
         classifier := s.classifier.modify ch (fun c => { c with malformed := satInc c.malformed }) }) ∧
       (r.result = .corrected → r.errorCount ≠ 0 → s.lookup ch q.rank q.bank q.row = none →
         s.classify ch (.reply r) = s'.takeCe ⟨l, r.cls, .patrol, s.clock.time⟩) ∧
       (r.result = .corrected → r.errorCount ≠ 0 → ∀ i, s.lookup ch q.rank q.bank q.row = some i →
         s.classify ch (.reply r) = s'.suppress i) ∧
       (r.result = .uncorrectable → r.errorCount ≠ 0 →
         s.classify ch (.reply r) = s'.appendUe ⟨l, .uncorrectable, .patrol, (s.lookup ch q.rank q.bank q.row).isSome⟩))) ∧
  (∀ (ch : Chan) (r : ScrubReply) (q : Request) (s : State), (s.scrub ch).tags.get r.tag = some q → q.number = r.request →
     q.kind = .verify →
     let s' : State := { s with scrubs := s.scrubs.modify ch (fun c => { c with tags := c.tags.set r.tag none, timeoutRun := 0 }) }
     let l : Loc := ⟨ch, q.rank, q.bank, q.row, r.column⟩
     let ended := fun (x : ReadResult) => s'.endRead ch r.tag q.number (some x)
     (r.result = .clean → s.classify ch (.reply r) = ended .clean) ∧
     (r.result = .refused → s.classify ch (.reply r) = ended .noAnswer) ∧
     (r.result = .corrected → r.errorCount ≠ 0 → s.classify ch (.reply r) = ended .errored) ∧
     (r.result = .uncorrectable → r.errorCount ≠ 0 → s.classify ch (.reply r) =
       (ended .errored).appendUe ⟨l, .uncorrectable, .verify, ((ended .errored).lookup ch q.rank q.bank q.row).isSome⟩) ∧
     (r.result = .corrected ∨ r.result = .uncorrectable → r.errorCount = 0 → s.classify ch (.reply r) =
       ({ s' with classifier := s.classifier.modify ch (fun c => { c with malformed := satInc c.malformed }) } : State).endRead
         ch r.tag q.number (some .noAnswer)))

/-! ### The correctable error table -/

/-- R13, R18, R19, R20, R23: a CE record whose key a valid entry holds is counted in that entry: count, last seen, last location,
worst class and origins. A TRACKING entry that reaches the threshold is promoted, in order: it becomes OVER_THRESHOLD and sets
CE_THRESHOLD; with auto-verify on and an IDLE status a job is created (R150, R151), or in a queue of 8 jobs the
verify-queue-full counter is increased (R21); under ON_THRESHOLD with no link the proposal attempt of R22 is made. At a hit on
an OVER_THRESHOLD entry the proposal attempt alone is made, under ON_THRESHOLD with no link. With auto-verify off and no
proposal due, nothing else changes. -/
def Obligations.HitCountsInEntry : Prop :=
  ∀ (i : CetIdx) (e : CetEntry) (r : CeRecord) (s : State), s.entry i = some e → e.key = s.cet.policy.granularity.reduce r.loc →
    (∀ j f, s.entry j = some f → f.key = e.key → j = i) →
    let counted : CetEntry := { e with
      count      := min (e.count + 1) 65535
      lastSeen   := r.arrival
      lastRow    := r.loc.row
      lastColumn := r.loc.column
      worst      := (if r.cls = .symbol then .symbol else e.worst)
      origins    := e.origins.add r.origin }
    let holding := fun (x : CetEntry) => ({ s with cet := { s.cet with entries := s.cet.entries.set i (some x) } } : State)
    (s.cet.policy.autoVerify = false → (s.cet.policy.proposeMode ≠ .onThreshold ∨ e.link ≠ none) →
      (e.state = .overThreshold ∨ counted.count < s.cet.policy.threshold → s.takeCe r = holding counted) ∧
      (e.state = .tracking → s.cet.policy.threshold ≤ counted.count → s.takeCe r =
        { holding { counted with state := .overThreshold } with
          events := { s.events with flags := s.events.flags ||| EventFlag.ceThreshold.mask } })) ∧
    (e.state = .tracking → counted.count < s.cet.policy.threshold → s.takeCe r = holding counted) ∧
    (e.state = .tracking → s.cet.policy.threshold ≤ counted.count → s.takeCe r = (holding counted).promoted i counted) ∧
    (e.state = .overThreshold → s.takeCe r =
      if s.cet.policy.proposeMode = .onThreshold ∧ e.link = none then (holding counted).proposalAttempt i else holding counted)

/-- R18, R24: a CE record whose key no entry holds allocates the lowest free index with count 1 and the record's values, and
advances the generation count by one; with a threshold above 1 nothing else changes. R20 to R22: with threshold 1 the new entry
is promoted in the same event, with its auto-verify and proposal attempts. -/
def Obligations.MissAllocatesLowestFree : Prop :=
  ∀ (i : CetIdx) (r : CeRecord) (s : State),
    (∀ j f, s.entry j = some f → f.key ≠ s.cet.policy.granularity.reduce r.loc) →
    s.entry i = none → (∀ j, j < i → s.entry j ≠ none) →
    let fresh : CetEntry := {
      key := s.cet.policy.granularity.reduce r.loc, count := 1, firstSeen := r.arrival, lastSeen := r.arrival
      lastRow := r.loc.row, lastColumn := r.loc.column, worst := r.cls
      origins := ⟨r.origin = .demand, r.origin = .controller, r.origin = .patrol, r.origin = .injected⟩
      state := .tracking, pinned := false, status := .idle, result := none, link := none }
    let allocated : State := { s with cet := { s.cet with
      generation := s.cet.generation + 1
      entries := s.cet.entries.set i (some fresh) } }
    (2 ≤ s.cet.policy.threshold → s.takeCe r = allocated) ∧
    (s.cet.policy.threshold ≤ 1 → s.takeCe r = allocated.promoted i fresh)

/-- R25: a miss with all 128 entries valid looks for a victim: the eligible entry (TRACKING, not pinned, IDLE) that is better than
every other eligible one by the tests of the rule in turn, lowest count, oldest last seen by age, lowest index; there is none
exactly when no entry is eligible. R26: the index of the victim holds the entry of the record, every other entry is as it was,
the replaced counter rises by one and the generation count by two, and the role of the victim as evidence ends. R20 to R22: with
threshold 1 the new entry, whose values are those of R24 (MissAllocatesLowestFree), is promoted in the same event, with its
auto-verify and proposal attempts. R27: with no eligible entry the record is dropped, counted as lost and flagged, and nothing
else changes. -/
def Obligations.FullTableLooksForVictim : Prop :=
  (∀ s : State,
     (∀ i, s.victim = some i ↔ ∃ e, s.entry i = some e ∧ e.Eligible ∧
       ∀ j f, s.entry j = some f → f.Eligible → j ≠ i → BetterVictim s.clock.time i e j f) ∧
     (s.victim = none ↔ ∀ i e, s.entry i = some e → ¬e.Eligible)) ∧
  (∀ (r : CeRecord) (s : State), (∀ j f, s.entry j = some f → f.key ≠ s.cet.policy.granularity.reduce r.loc) →
     (∀ j, s.entry j ≠ none) →
     (∀ i, s.victim = some i → 2 ≤ s.cet.policy.threshold →
       let t := s.takeCe r
       t = { s with
         cet := { s.cet with
           entries := s.cet.entries.set i (some (newEntry (s.cet.policy.granularity.reduce r.loc) r))
           generation := s.cet.generation + 2
           replaced := min (s.cet.replaced + 1) 65535 }
         retire := { s.retire with entries := t.retire.entries } } ∧
       ∀ k, t.retired k = (s.retired k).map (fun a => a.without i)) ∧
     (∀ i, s.victim = some i → s.cet.policy.threshold ≤ 1 →
       let fresh := newEntry (s.cet.policy.granularity.reduce r.loc) r
       s.takeCe r = ({ s with
         cet := { s.cet with
           entries := s.cet.entries.set i (some fresh)
           generation := s.cet.generation + 2
           replaced := min (s.cet.replaced + 1) 65535 }
         retire := { s.retire with entries := s.retire.entries.map (fun a => a.map (fun a => a.without i)) } } : State).promoted
           i fresh) ∧
     (s.victim = none → s.takeCe r = { s with
       cet := { s.cet with lost := min (s.cet.lost + 1) 65535 }
       events := { s.events with flags := s.events.flags ||| EventFlag.cetOverflow.mask } }))

/-- R22, R46, R47: the proposal attempt of a valid entry. Where a valid range overlaps the key's range the entry is linked to the
lowest-index one, and the merge is counted; otherwise the lowest free index holds a PROPOSED entry with the entry as evidence,
the entry is linked to it and RETIRE_PROPOSED is set; with no free index the refusal is counted, RETIRE_LIST_FULL is set and the
link stays absent. -/
def Obligations.ProposalAnswers : Prop :=
  ∀ (i : CetIdx) (e : CetEntry) (s : State), s.entry i = some e →
    let range := e.key.range (s.geometry e.key.channel)
    let linked := fun (j : RetIdx) => { s.cet with entries := s.cet.entries.set i (some { e with link := some j }) }
    (∀ j a, s.retired j = some a → range.overlaps a.range = true →
      (∀ k b, k < j → s.retired k = some b → range.overlaps b.range = false) →
      s.proposalAttempt i = { s with cet := linked j, retire := { s.retire with merged := min (s.retire.merged + 1) 65535 } }) ∧
    ((∀ k b, s.retired k = some b → range.overlaps b.range = false) →
      (∀ j, s.retired j = none → (∀ k, k < j → s.retired k ≠ none) → s.proposalAttempt i = { s with
        cet := linked j
        retire := { s.retire with entries := s.retire.entries.set j (some
          ⟨range, .proposed, .auto, some (.cet i), 0, s.clock.time, none⟩) }
        events := { s.events with flags := s.events.flags ||| EventFlag.retireProposed.mask } }) ∧
      ((∀ j, s.retired j ≠ none) → s.proposalAttempt i = { s with
        retire := { s.retire with refused := min (s.retire.refused + 1) 65535 }
        events := { s.events with flags := s.events.flags ||| EventFlag.retireListFull.mask } }))

/-- R28: what the free of a valid entry does for a cause that gives a reason for the abort of its job. The entry is free and the
generation count advances by one; every other entry keeps all but its verify status; a retirement entry whose evidence it was
loses the evidence and is otherwise unchanged; its verify job, when it has one, leaves the queue and VERIFY_ABORTED is set.
Links, queues, scrub contexts and the log are unchanged. For an entry whose verify status is IDLE the same holds of every cause,
the leak and the replacement without a reason included, and nothing else changes. -/
def Obligations.FreeOfAnEntry : Prop :=
  (∀ (i : CetIdx) (e : CetEntry) (reason : AbortReason) (s : State), s.QueueLaw → s.entry i = some e →
     let t := s.freeEntry i (some reason)
     t.entry i = none ∧ t.cet.generation = s.cet.generation + 1 ∧ t.cet.occupancy + 1 = s.cet.occupancy ∧
     (∀ j, j ≠ i → (t.entry j).map (fun f => { f with status := .idle }) = (s.entry j).map (fun f => { f with status := .idle })) ∧
     (∀ k, t.retired k = (s.retired k).map (fun a => a.without i)) ∧
     i ∉ t.verify.jobs.map Job.cet ∧
     (e.status ≠ .idle → t.flagged .verifyAborted = true) ∧
     (e.status = .idle → t.verify = s.verify ∧ t.events = s.events) ∧
     (e.status = .queued → t.verify.lastAbort = some (reason, i)) ∧
     t.links = s.links ∧ t.queues = s.queues ∧ t.scrubs = s.scrubs ∧ t.txs = s.txs ∧ t.uel = s.uel ∧ t.engine = s.engine) ∧
  (∀ (i : CetIdx) (e : CetEntry) (reason : Option AbortReason) (s : State), s.entry i = some e → e.status = .idle →
     s.freeEntry i reason = { s with
       cet := { s.cet with entries := s.cet.entries.set i none, generation := s.cet.generation + 1 }
       retire := { s.retire with entries := s.retire.entries.map (fun a => a.map (fun a => a.without i)) } })

/-- R17, R29: a leak expiry decreases every TRACKING, unpinned, IDLE entry by one and frees those that reach 0, keeps every other
entry, advances the generation count by the number freed, takes their role as evidence from the list, sets no flag, and starts
the timer again with the interval in force. Nothing else changes; without an expiry to take, nothing happens (log entry 2). A
timer at 0 is one whose expiry waits to be taken (log entry 4). -/
def Obligations.LeakExpiryDrainsTable : Prop :=
  ∀ s : State, s.rst = false →
    (s.cet.leakTimer = some 0 → ∃ t, exec .leakExpiry s = .next t ∧
      t = { s with
        cet := { s.cet with
          entries := s.cet.entries.map leaked
          generation := t.cet.generation
          leakTimer := (if s.cet.policy.leakInterval = 0 then none else some (s.cet.policy.leakInterval * 1000)) }
        retire := { s.retire with entries := t.retire.entries } } ∧
      t.cet.generation = s.cet.generation + BitVec.ofNat 16 (s.cet.occupancy - t.cet.occupancy) ∧
      (∀ k, t.retired k = (s.retired k).map (fun a =>
        if ∃ i, a.evidence = some (.cet i) ∧ (s.entry i).isSome = true ∧ (t.entry i).isSome = false
        then { a with evidence := none } else a))) ∧
    (s.cet.leakTimer ≠ some 0 → exec .leakExpiry s = .next s)

/-- R33 to R35: READ_CET returns the fields of any index, free or not, and FIND_CET the index whose key the location reduces to,
each with the generation count; neither changes anything but its completion. An index above 127 and a location field beyond its
range are refused with BAD_PARAM. A location outside the channel's geometry matches no entry; it, and a key that no entry holds,
complete with NOT_FOUND, with result words 0 (log entry 20). R13, R188: the words of READ_CET for a valid entry, bit by bit:
valid, row and column present, state, pinned, class, verify status, origins, result and link in word 0; the key in words 1 and
2; the count and the generation count in word 3; the two times; on page 1 the last row, the last column and the time of a
result; the bits that the layout leaves unnamed are 0. Every word but word 3 of page 0 of a free entry is 0. The value bits of a
field that is absent have no clause (log entry 21). -/
def Obligations.CetReads : Prop :=
  (∀ (p : Port) (s : State),
     (s.Takes p 16 →
       (∀ i : CetIdx, field (s.param p 0) 15 0 = i.val → exec .readCet s = .next
         (s.withDone p .ok (pages (cetPage0 (s.entry i) s.cet.generation) (cetPage1 (s.entry i)) []))) ∧
       (128 ≤ field (s.param p 0) 15 0 → exec .readCet s = .next (s.withRefusal p .badParam))) ∧
     (s.Takes p 17 →
       (∀ l i e, LocWords (s.param p 0) (s.param p 1) l → (s.geometry l.channel).admits l.rank l.bank l.row = true →
         s.entry i = some e → e.key = s.cet.policy.granularity.reduce l →
         (∀ j f, j < i → s.entry j = some f → f.key ≠ e.key) →
         exec .findCet s = .next (s.withOk p [num i.val, s.cet.generation.setWidth 32])) ∧
       (∀ l, LocWords (s.param p 0) (s.param p 1) l →
         ((s.geometry l.channel).admits l.rank l.bank l.row = false ∨
           ∀ j f, s.entry j = some f → f.key ≠ s.cet.policy.granularity.reduce l) →
         exec .findCet s = .next (s.withRefusal p .notFound)) ∧
       (BeyondRange (s.param p 0) (s.param p 1) → exec .findCet s = .next (s.withRefusal p .badParam)))) ∧
  ([VerifyStatus.idle, .queued, .running].map VerifyStatus.code = [0, 1, 2] ∧
   [VerifyOutcome.persistent, .intermittent, .notReproduced, .inconclusive].map VerifyOutcome.code = [0, 1, 2, 3]) ∧
  (∀ (e : CetEntry) (gen : BitVec 16), e.count ≤ 65535 →
     let w := fun k => (cetPage0 (some e) gen).getD k 0
     let v := fun k => (cetPage1 (some e)).getD k 0
     (w 0).getLsbD 0 = true ∧ (w 0).getLsbD 1 = e.key.row.isSome ∧ (w 0).getLsbD 2 = e.key.column.isSome ∧
     (w 0).getLsbD 3 = decide (e.state = .overThreshold) ∧ (w 0).getLsbD 4 = e.pinned ∧
     (w 0).getLsbD 5 = decide (e.worst = .symbol) ∧ field (w 0) 7 6 = e.status.code ∧
     (w 0).getLsbD 8 = e.origins.demand ∧ (w 0).getLsbD 9 = e.origins.controller ∧ (w 0).getLsbD 10 = e.origins.patrol ∧
     (w 0).getLsbD 11 = e.origins.injected ∧ (w 0).getLsbD 12 = e.result.isSome ∧
     (∀ o t, e.result = some (o, t) → field (w 0) 14 13 = o.code) ∧ (w 0).getLsbD 15 = e.link.isSome ∧
     (∀ j, e.link = some j → field (w 0) 20 16 = j.val) ∧
     field (w 1) 3 0 = e.key.channel.val ∧ field (w 1) 7 4 = e.key.rank.val ∧ field (w 1) 15 8 = e.key.bank.val ∧
     (∀ c, e.key.column = some c → field (w 1) 27 16 = c.val) ∧ (∀ r, e.key.row = some r → field (w 2) 19 0 = r.val) ∧
     field (w 0) 31 21 = 0 ∧ field (w 1) 31 28 = 0 ∧ field (w 2) 31 20 = 0 ∧
     field (w 3) 15 0 = e.count ∧ field (w 3) 31 16 = gen.toNat ∧ w 4 = e.firstSeen ∧ w 5 = e.lastSeen ∧
     cetPage0 none gen = ([0, 0, 0, gen.setWidth 32 <<< 16, 0, 0] : List Word) ∧
     (v 0).toNat = e.lastRow.val ∧ (v 1).toNat = e.lastColumn.val ∧ (∀ o t, e.result = some (o, t) → v 2 = t) ∧
     v 3 = 0 ∧ v 4 = 0 ∧ v 5 = 0 ∧ ∀ k, (cetPage1 none).getD k 0 = 0)

/-- R33, R36, R37: CLEAR_CET_ENTRY frees a valid entry with reason CLEARED and returns the generation count after it; a free entry
is refused with NOT_FOUND and an index above 127 with BAD_PARAM. CLEAR_CET_ALL frees every entry in one event and returns their
number; occupancy and pinned count are then 0, no job is left, and the policy, the timer and the three counters are unchanged.
R38, R39: PIN_CET pins an unpinned entry while fewer than 96 are pinned and refuses it with LIMIT otherwise; a pinned entry
stays as it is and the command completes with OK at any count. UNPIN_CET leaves the entry unpinned. Each returns the generation
count and changes nothing else, with the same refusals of a free entry and of an index above 127. -/
def Obligations.CetClearsAndPins : Prop :=
  (∀ (p : Port) (s : State),
     (s.Takes p 18 →
       (∀ i e, field (s.param p 0) 15 0 = i.val → s.entry i = some e → exec .clearCetEntry s = .next
         ((s.freeEntry i (some .cleared)).withOk p [(s.cet.generation + 1).setWidth 32])) ∧
       (∀ i : CetIdx, field (s.param p 0) 15 0 = i.val → s.entry i = none →
         exec .clearCetEntry s = .next (s.withRefusal p .notFound)) ∧
       (128 ≤ field (s.param p 0) 15 0 → exec .clearCetEntry s = .next (s.withRefusal p .badParam))) ∧
     (s.Takes p 19 → ∃ t : State,
       exec .clearCetAll s = .next (t.withOk p [num s.cet.occupancy, t.cet.generation.setWidth 32]) ∧
       (∀ i, t.entry i = none) ∧ t.cet.occupancy = 0 ∧ t.cet.pinnedCount = 0 ∧
       t.cet.generation = s.cet.generation + BitVec.ofNat 16 s.cet.occupancy ∧
       t.cet.policy = s.cet.policy ∧ t.cet.leakTimer = s.cet.leakTimer ∧ t.cet.lost = s.cet.lost ∧
       t.cet.replaced = s.cet.replaced ∧ t.cet.verifyQueueFull = s.cet.verifyQueueFull ∧
       (s.QueueLaw → t.verify.jobs = []) ∧
       t.links = s.links ∧ t.queues = s.queues ∧ t.scrubs = s.scrubs ∧ t.uel = s.uel)) ∧
  (∀ (p : Port) (s : State),
     let gen := s.cet.generation.setWidth 32
     let pinnedAs := fun (i : CetIdx) (e : CetEntry) (b : Bool) =>
       ({ s with cet := { s.cet with entries := s.cet.entries.set i (some { e with pinned := b }) } } : State)
     (∀ i e, field (s.param p 0) 15 0 = i.val → s.entry i = some e →
       (s.Takes p 20 →
         (e.pinned = true → exec .pinCet s = .next (s.withOk p [gen])) ∧
         (e.pinned = false → s.cet.pinnedCount < 96 → exec .pinCet s = .next ((pinnedAs i e true).withOk p [gen])) ∧
         (e.pinned = false → 96 ≤ s.cet.pinnedCount → exec .pinCet s = .next (s.withRefusal p .limit))) ∧
       (s.Takes p 21 → exec .unpinCet s = .next ((pinnedAs i e false).withOk p [gen]))) ∧
     (∀ i : CetIdx, field (s.param p 0) 15 0 = i.val → s.entry i = none →
       (s.Takes p 20 → exec .pinCet s = .next (s.withRefusal p .notFound)) ∧
       (s.Takes p 21 → exec .unpinCet s = .next (s.withRefusal p .notFound))) ∧
     (128 ≤ field (s.param p 0) 15 0 →
       (s.Takes p 20 → exec .pinCet s = .next (s.withRefusal p .badParam)) ∧
       (s.Takes p 21 → exec .unpinCet s = .next (s.withRefusal p .badParam))))

/-! ### The retirement list and the uncorrectable error log -/

/-- R53, R58: READ_RETIRE returns every field of an index, free or not, with the two counts, and FIND_RETIRE the index and the state
(PROPOSED 0, CONFIRMED 1) of the valid range that contains a location within geometry; neither changes anything but its
completion, under every authority. R81, R82: READ_UE returns the record at a position, or the oldest with an id, and changes
nothing but its completion; READ_UE_OVERFLOW returns the counter and the summary and, with clear yes, empties both and nothing
else. The refusals are those of the rules, in their order. That a parameter with a word of its own is the whole word is the
reading of log entry 10. R42, R66, R72 with the result layouts: the words of READ_RETIRE for a valid entry and for a free one,
of READ_UE and of READ_UE_OVERFLOW, bit by bit, with the bits that a layout leaves unnamed 0. A field narrower than its number
shows it modulo its width; in a lawful state every number fits. The value bits of a field that is absent have no clause (log
entry 21). -/
def Obligations.ListAndLogReads : Prop :=
  (∀ (p : Port) (s : State),
     (s.Takes p 32 →
       (∀ i : RetIdx, field (s.param p 0) 15 0 = i.val → exec .readRetire s = .next
         (s.withOk p (retirePage (s.retired i) (s.retire.countIn .proposed) (s.retire.countIn .confirmed)))) ∧
       (32 ≤ field (s.param p 0) 15 0 → exec .readRetire s = .next (s.withRefusal p .badParam))) ∧
     (s.Takes p 33 →
       (∀ l, LocWords (s.param p 0) (s.param p 1) l →
         ((s.geometry l.channel).admits l.rank l.bank l.row = false → exec .findRetire s = .next (s.withRefusal p .badParam)) ∧
         ((s.geometry l.channel).admits l.rank l.bank l.row = true →
           (∀ i a, s.retired i = some a → l.inside a.range = true → (∀ j b, j < i → s.retired j = some b → l.inside b.range = false) →
             exec .findRetire s = .next (s.withOk p [num i.val, if a.state = .proposed then 0 else 1])) ∧
           ((∀ i a, s.retired i = some a → l.inside a.range = false) → exec .findRetire s = .next (s.withRefusal p .notFound)))) ∧
       (BeyondRange (s.param p 0) (s.param p 1) → exec .findRetire s = .next (s.withRefusal p .badParam)))) ∧
  (∀ (p : Port) (s : State),
     (s.Takes p 48 →
       let v := field (s.param p 1) 15 0
       let held := s.uel.records.length
       (s.param p 0 = 0 →
         (15 < v → exec .readUe s = .next (s.withRefusal p .badParam)) ∧
         (v ≤ 15 → held ≤ v → exec .readUe s = .next (s.withRefusal p .notFound)) ∧
         (∀ r, v ≤ 15 → s.uel.records[v]? = some r → exec .readUe s = .next (s.withOk p (uePage r v held)))) ∧
       (s.param p 0 = 1 →
         (255 < v → exec .readUe s = .next (s.withRefusal p .badParam)) ∧
         (v ≤ 255 → (∀ r ∈ s.uel.records, r.id.toNat ≠ v) → exec .readUe s = .next (s.withRefusal p .notFound)) ∧
         (∀ before r after, s.uel.records = before ++ r :: after → r.id.toNat = v → (∀ x ∈ before, x.id.toNat ≠ v) →
           exec .readUe s = .next (s.withOk p (uePage r before.length held)))) ∧
       (2 ≤ (s.param p 0).toNat → exec .readUe s = .next (s.withRefusal p .badParam))) ∧
     (s.Takes p 50 →
       let page := overflowPage s.uel.overflow s.uel.firstLost
       (s.param p 0 = 0 → exec .readUeOverflow s = .next (s.withOk p page)) ∧
       (s.param p 0 = 1 → exec .readUeOverflow s = .next
         (({ s with uel := { s.uel with overflow := 0, firstLost := none } } : State).withOk p page)) ∧
       (2 ≤ (s.param p 0).toNat → exec .readUeOverflow s = .next (s.withRefusal p .badParam)))) ∧
  ([UeClass.uncorrectable, .poison].map UeClass.code = [2, 3] ∧
   [Origin.demand, .controller, .patrol, .injected, .verify].map Origin.code = [0, 1, 2, 3, 4] ∧
   [AckState.opened, .handedOver, .escalated].map AckState.code = [0, 1, 2]) ∧
  (∀ (a : RetEntry) (proposed confirmed : Nat),
     let w := fun k => (retirePage (some a) proposed confirmed).getD k 0
     let v := fun k => (retirePage none proposed confirmed).getD k 0
     (w 0).getLsbD 0 = true ∧ (w 0).getLsbD 1 = decide (a.state = .confirmed) ∧ (w 0).getLsbD 2 = decide (a.origin = .host) ∧
     (w 0).getLsbD 3 = a.confirmed.isSome ∧ (a.evidence = none → field (w 0) 5 4 = 0) ∧
     (∀ i, a.evidence = some (.cet i) → field (w 0) 5 4 = 1 ∧ field (w 0) 15 8 = i.val) ∧
     (∀ id, a.evidence = some (.ue id) → field (w 0) 5 4 = 2 ∧ field (w 0) 15 8 = id.toNat) ∧ field (w 0) 7 6 = 0 ∧
     field (w 0) 31 16 = a.suppressed % 2 ^ 16 ∧
     field (w 1) 3 0 = a.range.channel.val ∧ field (w 1) 7 4 = a.range.rank.val ∧ field (w 1) 15 8 = a.range.bank.val ∧
     field (w 1) 21 16 = proposed % 2 ^ 6 ∧ field (w 1) 29 24 = confirmed % 2 ^ 6 ∧ field (w 1) 23 22 = 0 ∧ field (w 1) 31 30 = 0 ∧
     (w 2).toNat = a.range.first.val ∧ (w 3).toNat = a.range.last.val ∧ w 4 = a.created ∧ (∀ t, a.confirmed = some t → w 5 = t) ∧
     v 0 = 0 ∧ field (v 1) 15 0 = 0 ∧ field (v 1) 21 16 = proposed % 2 ^ 6 ∧ field (v 1) 29 24 = confirmed % 2 ^ 6 ∧
     field (v 1) 23 22 = 0 ∧ field (v 1) 31 30 = 0 ∧ v 2 = 0 ∧ v 3 = 0 ∧ v 4 = 0 ∧ v 5 = 0) ∧
  (∀ (r : UeRecord) (position held lost : Nat) (first : Option LostUe),
     let w := fun k => (uePage r position held).getD k 0
     let v := fun k => (overflowPage lost first).getD k 0
     field (w 0) 7 0 = r.id.toNat ∧ field (w 0) 9 8 = r.cls.code ∧ field (w 0) 11 10 = 0 ∧ field (w 0) 14 12 = r.origin.code ∧
     (w 0).getLsbD 15 = r.inRetired ∧ field (w 0) 17 16 = r.ack.code ∧ (w 0).getLsbD 18 = r.window.isSome ∧
     (w 0).getLsbD 19 = false ∧ field (w 0) 23 20 = position % 2 ^ 4 ∧ field (w 0) 28 24 = held % 2 ^ 5 ∧ field (w 0) 31 29 = 0 ∧
     field (w 1) 3 0 = r.loc.channel.val ∧ field (w 1) 7 4 = r.loc.rank.val ∧ field (w 1) 15 8 = r.loc.bank.val ∧
     field (w 1) 27 16 = r.loc.column.val ∧ field (w 1) 31 28 = 0 ∧ (w 2).toNat = r.loc.row.val ∧ w 3 = r.arrival ∧
     (∀ n, r.window = some n → (w 4).toNat = n % 2 ^ 32) ∧ w 5 = 0 ∧
     (v 0).toNat = lost % 2 ^ 32 ∧ (v 1).getLsbD 0 = first.isSome ∧ field (v 1) 7 1 = 0 ∧ field (v 1) 11 10 = 0 ∧
     field (v 1) 31 15 = 0 ∧
     (∀ l, first = some l →
       field (v 1) 9 8 = l.cls.code ∧ field (v 1) 14 12 = l.origin.code ∧
       field (v 2) 3 0 = l.loc.channel.val ∧ field (v 2) 7 4 = l.loc.rank.val ∧ field (v 2) 15 8 = l.loc.bank.val ∧
       field (v 2) 27 16 = l.loc.column.val ∧ field (v 2) 31 28 = 0 ∧ (v 3).toNat = l.loc.row.val ∧ v 4 = l.time) ∧ v 5 = 0)

/-- R43, R52, R53, R54, R59: ADD_RETIRE from an admitted port of a well-formed range that overlaps no valid entry creates the lowest
free index as a CONFIRMED HOST entry with the two times, begins its purge and stays RUNNING; no flag is set and nothing else
changes. Its refusals come in the order of the rule, OVERLAP with the lowest-index overlapping entry in RESULT0. R55:
CONFIRM_RETIRE from an admitted port makes a PROPOSED entry CONFIRMED at the current time with every other field kept, begins
its purge and stays RUNNING; nothing else changes. Its refusals come in the order of the rule. -/
def Obligations.AddAndConfirmBeginPurge : Prop :=
  (∀ (p : Port) (s : State), s.Takes p 34 → s.engine.authority.admits p = true →
     (8 ≤ field (s.param p 0) 3 0 ∨ 4 ≤ field (s.param p 0) 7 4 ∨ 32 ≤ field (s.param p 0) 15 8 ∨
       262144 ≤ field (s.param p 1) 19 0 ∨ 262144 ≤ field (s.param p 2) 19 0 →
       exec .addRetire s = .next (s.withRefusal p .badParam)) ∧
     (∀ r, RangeWords (s.param p 0) (s.param p 1) (s.param p 2) r →
       (r.wellFormed (s.geometry r.channel) = false → exec .addRetire s = .next (s.withRefusal p .badParam)) ∧
       (r.wellFormed (s.geometry r.channel) = true →
         (∀ i a, s.retired i = some a → r.overlaps a.range = true →
           (∀ j b, j < i → s.retired j = some b → r.overlaps b.range = false) →
           exec .addRetire s = .next (s.withDone p .overlap (pages [num i.val] [] []))) ∧
         ((∀ i a, s.retired i = some a → r.overlaps a.range = false) →
           ((∀ i, s.retired i ≠ none) → exec .addRetire s = .next (s.withRefusal p .full)) ∧
           (∀ i, s.retired i = none → (∀ j, j < i → s.retired j ≠ none) → exec .addRetire s = .next
             (({ s with
               retire := { s.retire with entries := s.retire.entries.set i (some
                 ⟨r, .confirmed, .host, none, 0, s.clock.time, some s.clock.time⟩) }
               engine := { s.engine with purge := some ⟨i, 0, 0⟩ } } : State).withTaken p)))))) ∧
  (∀ (p : Port) (s : State), s.Takes p 35 → s.engine.authority.admits p = true →
     (32 ≤ field (s.param p 0) 15 0 → exec .confirmRetire s = .next (s.withRefusal p .badParam)) ∧
     (∀ i : RetIdx, field (s.param p 0) 15 0 = i.val →
       (s.retired i = none → exec .confirmRetire s = .next (s.withRefusal p .notFound)) ∧
       (∀ a, s.retired i = some a → a.state = .confirmed → exec .confirmRetire s = .next (s.withRefusal p .stateConflict)) ∧
       (∀ a, s.retired i = some a → a.state = .proposed → exec .confirmRetire s = .next
         (({ s with
           retire := { s.retire with entries := s.retire.entries.set i (some
             { a with state := .confirmed, confirmed := some s.clock.time }) }
           engine := { s.engine with purge := some ⟨i, 0, 0⟩ } } : State).withTaken p))))

/-- R32, R53, R56, R57: REJECT_RETIRE frees a PROPOSED entry with the CET entry that is its evidence, and says whether one was
freed; REMOVE_RETIRE frees a CONFIRMED entry and returns its suppressed count. Both set the links that name the index to absent;
REMOVE_RETIRE, and a REJECT_RETIRE without CET evidence, free no CET entry. The refusals come in the rule's order. -/
def Obligations.RejectAndRemove : Prop :=
  ∀ (p : Port) (i : RetIdx) (s : State), field (s.param p 0) 15 0 = i.val → s.engine.authority.admits p = true →
    let unlinked := fun (c : Cet) =>
      { c with entries := c.entries.map (fun e => e.map (fun e => if e.link = some i then { e with link := none } else e)) }
    let gone := fun (x : State) => ({ x with
      cet := unlinked x.cet, retire := { x.retire with entries := x.retire.entries.set i none } } : State)
    (s.Takes p 36 →
      (s.retired i = none → exec .rejectRetire s = .next (s.withRefusal p .notFound)) ∧
      (∀ a, s.retired i = some a → a.state = .confirmed → exec .rejectRetire s = .next (s.withRefusal p .stateConflict)) ∧
      (∀ a c, s.retired i = some a → a.state = .proposed → a.evidence = some (.cet c) → s.entry c ≠ none →
        exec .rejectRetire s = .next ((gone (s.freeEntry c (some .cleared))).withOk p [1])) ∧
      (∀ a, s.retired i = some a → a.state = .proposed → (∀ c, a.evidence ≠ some (.cet c)) →
        exec .rejectRetire s = .next ((gone s).withOk p [0]))) ∧
    (s.Takes p 37 →
      (s.retired i = none → exec .removeRetire s = .next (s.withRefusal p .notFound)) ∧
      (∀ a, s.retired i = some a → a.state = .proposed → exec .removeRetire s = .next (s.withRefusal p .stateConflict)) ∧
      (∀ a, s.retired i = some a → a.state = .confirmed →
        exec .removeRetire s = .next ((gone s).withOk p [num a.suppressed])))

/-- R28, R60, R61: a purge visit frees the entry at the next index with reason RETIRED exactly when its key lies inside the purge's
range, and moves to the next index. The visit of index 127 ends the purge and completes the command with OK, the index of the
range and the number purged. -/
def Obligations.PurgeVisitsNextIndex : Prop :=
  ∀ (g : Purge) (i : CetIdx) (a : RetEntry) (s : State), s.rst = false → s.engine.purge = some g → g.next = i.val →
    s.retired g.serves = some a →
    let hit := (s.entry i).any (fun e => e.key.inside a.range (s.geometry e.key.channel))
    let visited := if hit = true then s.freeEntry i (some .retired) else s
    let purged := if hit = true then g.purged + 1 else g.purged
    (i.val < 127 → exec .purgeVisit s = .next { visited with
      engine := { s.engine with purge := some ⟨g.serves, g.next + 1, purged⟩ } }) ∧
    (i.val = 127 → ∀ p, (s.mail p).state = .running → (s.mail (Port.other p)).state ≠ .running →
      ∃ t, exec .purgeVisit s = .next t ∧ t.engine = { s.engine with purge := none } ∧
        t.cet = visited.cet ∧ t.retire = visited.retire ∧ t.verify = visited.verify ∧
        t.mail p = { s.mail p with state := .done, code := .ok, result := pages [num g.serves.val, num purged] [] [] } ∧
        t.mail (Port.other p) = s.mail (Port.other p) ∧ t.flagged (doneFlag p) = true ∧
        t.links = s.links ∧ t.scrubs = s.scrubs ∧ t.queues = s.queues ∧ t.uel = s.uel)

/-- R66, R67, R70: an append to a log of fewer than 16 records is stored last with the next id, OPEN, with the system window running
when it is not 0, and sets UE_LOGGED; with propose-on-UE off nothing else changes. R45, R48, R71: with propose-on-UE on, a
stored record whose location lies inside no valid range proposes its row with its id as evidence, sets RETIRE_PROPOSED, or finds
no free index, counts the refusal and sets RETIRE_LIST_FULL; one inside a valid range of either state proposes nothing. The
record is stored alike in all these cases, and nothing else changes. R72: an append to a log of 16 is lost: it is counted, the
first loss is kept, UEL_OVERFLOW is set, and with fatal-on-overflow the latch and its cause; no record, no window and no id
changes, and no proposal is made. -/
def Obligations.AppendStoresProposesOrLoses : Prop :=
  (∀ (a : UeAppend) (s : State),
     (s.uel.records.length < 16 → s.uel.policy.proposeOnUe = false → s.appendUe a = { s with
       uel := { s.uel with
         nextId := s.uel.nextId + 1
         records := s.uel.records ++ [⟨s.uel.nextId, a.loc, a.cls, a.origin, a.inRetired, s.clock.time, .opened,
           if s.uel.policy.systemWindow = 0 then none else some s.uel.policy.systemWindow⟩] }
       events := { s.events with flags := s.events.flags ||| EventFlag.ueLogged.mask } }) ∧
     (16 ≤ s.uel.records.length → s.appendUe a = { s with
       uel := { s.uel with
         overflow := min (s.uel.overflow + 1) 65535
         firstLost := (match s.uel.firstLost with | none => some ⟨a.loc, a.cls, a.origin, s.clock.time⟩ | some x => some x) }
       events := { s.events with
         flags := s.events.flags ||| EventFlag.uelOverflow.mask
         fatalLatch := s.events.fatalLatch || s.uel.policy.fatalOnOverflow
         overflowCause := s.events.overflowCause || s.uel.policy.fatalOnOverflow } })) ∧
  (∀ (a : UeAppend) (s : State), s.uel.records.length < 16 → s.uel.policy.proposeOnUe = true →
     let t := s.appendUe a
     let range : Range := ⟨a.loc.channel, a.loc.rank, a.loc.bank, a.loc.row, a.loc.row⟩
     let stored : State := { s with
       uel := { s.uel with
         nextId := s.uel.nextId + 1
         records := s.uel.records ++ [⟨s.uel.nextId, a.loc, a.cls, a.origin, a.inRetired, s.clock.time, .opened,
           if s.uel.policy.systemWindow = 0 then none else some s.uel.policy.systemWindow⟩] }
       events := { s.events with flags := s.events.flags ||| EventFlag.ueLogged.mask } }
     t.uel = stored.uel ∧ t.uel.records.length = s.uel.records.length + 1 ∧ t.flagged .ueLogged = true ∧
     ((∃ i b, s.retired i = some b ∧ a.loc.inside b.range = true) → t = stored) ∧
     ((∀ i b, s.retired i = some b → a.loc.inside b.range = false) →
       (∀ j, s.retired j = none → (∀ k, k < j → s.retired k ≠ none) → t = { stored with
         retire := { s.retire with entries := s.retire.entries.set j (some
           ⟨range, .proposed, .auto, some (.ue s.uel.nextId), 0, s.clock.time, none⟩) }
         events := { stored.events with flags := stored.events.flags ||| EventFlag.retireProposed.mask } }) ∧
       ((∀ j, s.retired j ≠ none) → t = { stored with
         retire := { s.retire with refused := min (s.retire.refused + 1) 65535 }
         events := { stored.events with flags := stored.events.flags ||| EventFlag.retireListFull.mask } })))

/-- R74: the expiry of the window of an OPEN record hands it over, sets UE_HANDOVER, and starts the service window when it is not 0;
every other field and every other record is kept, and two such expiries have the same outcome in both orders. R75: the expiry of
the window of a HANDED_OVER record escalates it without a window, sets UE_ESCALATED and, with fatal-on-escalation on, the latch
and its cause. A position with no such record has no expiry (log entry 2). A timer at 0 is one whose expiry waits to be taken
(log entry 4). -/
def Obligations.WindowExpiries : Prop :=
  ∀ (i : Fin 16) (s : State), s.rst = false →
    (∀ r, s.uel.records[i.val]? = some r → r.ack = .opened → r.window = some 0 → exec (.systemWindowExpiry i) s = .next { s with
      uel := { s.uel with records := s.uel.records.set i.val { r with
        ack := .handedOver
        window := (if s.uel.policy.serviceWindow = 0 then none else some s.uel.policy.serviceWindow) } }
      events := { s.events with flags := s.events.flags ||| EventFlag.ueHandover.mask } }) ∧
    (∀ r, s.uel.records[i.val]? = some r → r.ack = .handedOver → r.window = some 0 → exec (.serviceWindowExpiry i) s = .next { s with
      uel := { s.uel with records := s.uel.records.set i.val { r with ack := .escalated, window := none } }
      events := { s.events with
        flags := s.events.flags ||| EventFlag.ueEscalated.mask
        fatalLatch := s.events.fatalLatch || s.uel.policy.fatalOnEscalation
        escalationCause := s.events.escalationCause || s.uel.policy.fatalOnEscalation } }) ∧
    ((∀ r, s.uel.records[i.val]? = some r → r.ack ≠ .opened ∨ r.window ≠ some 0) → exec (.systemWindowExpiry i) s = .next s) ∧
    ((∀ r, s.uel.records[i.val]? = some r → r.ack ≠ .handedOver ∨ r.window ≠ some 0) → exec (.serviceWindowExpiry i) s = .next s) ∧
    (∀ j t u, exec (.systemWindowExpiry i) s = .next t → exec (.systemWindowExpiry j) s = .next u →
      ∃ v, exec (.systemWindowExpiry j) t = .next v ∧ exec (.systemWindowExpiry i) u = .next v)

/-- R65, R67, R76, R77: ACK_UE acts on the oldest record with the id. The System port removes it in every state and the Service port
once it has been handed over: later records move forward, and the result is the id, the former state and the number then held;
no flag but the done flag, no latch and no retirement entry changes. An OPEN record is refused to the Service port with
NOT_PERMITTED, an id that no record carries with NOT_FOUND and an id above 255 with BAD_PARAM. -/
def Obligations.AckRemovesOldestWithId : Prop :=
  ∀ (p : Port) (s : State), s.Takes p 49 →
    let id := field (s.param p 0) 15 0
    (256 ≤ id → exec .ackUe s = .next (s.withRefusal p .badParam)) ∧
    (id ≤ 255 → (∀ r ∈ s.uel.records, r.id.toNat ≠ id) → exec .ackUe s = .next (s.withRefusal p .notFound)) ∧
    (∀ before r after, s.uel.records = before ++ r :: after → r.id.toNat = id → (∀ x ∈ before, x.id.toNat ≠ id) →
      (p = .system ∨ r.ack ≠ .opened → exec .ackUe s = .next
        (({ s with uel := { s.uel with records := before ++ after } } : State).withOk p
          [num id, num r.ack.code, num (before.length + after.length)])) ∧
      (p = .service → r.ack = .opened → exec .ackUe s = .next (s.withRefusal p .notPermitted)))

/-! ### The Soft reset and the rules of the whole part -/

/-- R41, R64, R83, R101, R126, R146, R159, R175, R176: ENGINE_RESET from the Service port empties the queues, the slot and the
verify queue, frees every tag, ends every hold with its ceiling and makes a DRAINING or HELD patrol RUNNING, restarts every link
that is not DOWN in SYNCING with a fresh SYNC_REQUEST and LINK_CHANGE, and completes with OK. That the SYNC_REQUEST replaces one
that still waits is the reading of log entry 8. It keeps every CET entry but its verify status, the CET's counts, counters and
timer, the list, the log, the geometries, the counters of the links, every other field of the scrub contexts, the settings, the
masks, the latch, every flag that is set, and the other mailbox. -/
def Obligations.SoftResetRestartsTraffic : Prop :=
  ∀ s : State, s.Takes .service 83 → ∃ t : State, exec .engineReset s = .next (t.withOk .service []) ∧
    (∀ ch, t.queues.get ch = []) ∧ t.intake = { s.intake with slot := none, lastServed := .slot } ∧
    t.verify = { s.verify with jobs := [], records := t.verify.records } ∧ (∀ ch, t.verify.records.get ch = none) ∧
    t.cet = { s.cet with entries := t.cet.entries } ∧
    (∀ i, t.entry i = (s.entry i).map (fun e => { e with status := .idle })) ∧
    (∀ ch, t.scrub ch = { s.scrub ch with
      tags := (t.scrub ch).tags
      timeoutRun := 0
      holdFlag := false
      ceilingTimer := none
      patrol := (if (s.scrub ch).patrol = .draining ∨ (s.scrub ch).patrol = .held then .running else (s.scrub ch).patrol) }) ∧
    (∀ ch, (∀ tag, (t.scrub ch).tags.get tag = none) ∧ (t.scrub ch).holdFlag = false ∧ (t.scrub ch).timeoutRun = 0 ∧
      (t.scrub ch).cursor = (s.scrub ch).cursor ∧ (t.scrub ch).stepDue = (s.scrub ch).stepDue ∧
      (t.scrub ch).pacingTimer = (s.scrub ch).pacingTimer ∧ (t.scrub ch).nextNumber = (s.scrub ch).nextNumber ∧
      (t.scrub ch).passes = (s.scrub ch).passes ∧ (t.scrub ch).counters = (s.scrub ch).counters) ∧
    (∀ ch, (s.link ch).state = .down → t.link ch = s.link ch ∧ t.txs.get ch = s.txs.get ch) ∧
    (∀ ch, (s.link ch).state ≠ .down →
      t.link ch = { s.link ch with state := .syncing, outstanding := 0, awaiting := 0, checkFailures := 0, attempts := 1, attemptTimer := some 50 } ∧
      (t.txs.get ch).sending = (s.txs.get ch).sending ∧
      ((s.link ch).state = .active → (t.txs.get ch).waiting = [.syncRequest]) ∧
      ((s.link ch).state = .syncing ∨ (s.link ch).state = .failed →
        (t.txs.get ch).waiting = (s.txs.get ch).waiting.filter (fun f => !f.isSync) ++ [.syncRequest])) ∧
    ((∃ ch, (s.link ch).state ≠ .down) → t.flagged .linkChange = true) ∧
    ((∀ ch, (s.link ch).state = .down) → t.events = s.events) ∧
    t.events = { s.events with flags := t.events.flags } ∧ s.events.flags &&& t.events.flags = s.events.flags ∧
    t.clock = s.clock ∧ t.retire = s.retire ∧ t.uel = s.uel ∧ t.classifier = s.classifier ∧ t.batch = s.batch ∧
    t.engine = s.engine ∧ t.sysMail = s.sysMail ∧ t.svcMail = s.svcMail ∧ t.portData = s.portData ∧ t.rst = s.rst

/-- R179, R182: no command but an EVENT_CLEAR write and Full reset clears an event flag. R183: the FATAL latch, once set, is cleared
only by a CLEAR_FATAL that the engine takes from the Service port and by Full reset. R65, R66: a record leaves the log only by
an ACK_UE or by Full reset, the others keep their order, and a record that stays keeps its id, location, class, origin,
in-retired flag and arrival time. -/
def Obligations.FlagsLatchAndRecordsPersist : Prop :=
  (∀ (c : Instr) (s t : State), exec c s = .next t → (∀ p v, c ≠ .eventClearWrite p v) → c ≠ .fullReset →
     ∀ f : EventFlag, s.flagged f = true → t.flagged f = true) ∧
  (∀ (c : Instr) (s t : State), exec c s = .next t → c ≠ .fullReset → s.events.fatalLatch = true → t.events.fatalLatch = false →
     c = .clearFatal ∧ s.Takes .service 82) ∧
  (∀ (c : Instr) (s t : State), exec c s = .next t → c ≠ .fullReset → c ≠ .ackUe →
     let fixed := fun (r : UeRecord) => (r.id, r.loc, r.cls, r.origin, r.inRetired, r.arrival)
     (s.uel.records.map fixed) <+: (t.uel.records.map fixed))

/-- R3, R52, R172, R181: the geometries change only by CONFIGURE_CHANNEL, the retirement authority only by SET_AUTHORITY, the
service-first setting only by SET_SERVICE_FIRST (R173), a line mask only by a line mask write of its port, and the policies of
the tables only by SET_POLICY, besides Full reset. R127, R143, R144: of a scrub context the mode changes only by START, the
pacing interval only by SET_PACING, the hold policy, the segment size and the hold ceiling only by SET_HOLD_POLICY, and the
reply timeout only by SET_TIMEOUT, besides Full reset. -/
def Obligations.SettingsChangeByTheirCommands : Prop :=
  ∀ (c : Instr) (s t : State), exec c s = .next t → c ≠ .fullReset →
    (c ≠ .configureChannel → ∀ ch, t.geometry ch = s.geometry ch) ∧
    (c ≠ .setAuthority → t.engine.authority = s.engine.authority) ∧
    (c ≠ .setServiceFirst → t.engine.serviceFirst = s.engine.serviceFirst) ∧
    ((∀ v, c ≠ .lineMaskWrite .system v) → t.events.irqMask = s.events.irqMask) ∧
    ((∀ v, c ≠ .lineMaskWrite .service v) → t.events.alertMask = s.events.alertMask) ∧
    (c ≠ .setPolicy → t.cet.policy = s.cet.policy ∧ t.uel.policy = s.uel.policy ∧ t.batch = s.batch ∧
      t.verify.reads = s.verify.reads ∧ t.verify.persist = s.verify.persist ∧ t.intake.mode = s.intake.mode) ∧
    (∀ ch, (c ≠ .scrubStart → (t.scrub ch).mode = (s.scrub ch).mode) ∧
      (c ≠ .setPacing → (t.scrub ch).pacing = (s.scrub ch).pacing) ∧
      (c ≠ .setHoldPolicy → (t.scrub ch).holdPolicy = (s.scrub ch).holdPolicy ∧ (t.scrub ch).segment = (s.scrub ch).segment ∧
        (t.scrub ch).ceiling = (s.scrub ch).ceiling) ∧
      (c ≠ .setTimeout → (t.scrub ch).replyTimeout = (s.scrub ch).replyTimeout))

/-! ### The laws of the manual -/

/-- Every law of `State.Lawful` holds right after Full reset. -/
def Obligations.LawsHoldAfterReset : Prop :=
  State.reset.Lawful

/-- R85, R118: every step keeps the credit law of every channel. -/
def Obligations.CreditLawKept : Prop :=
  ∀ s t : State, s.CreditLaw → step s = .next t → t.CreditLaw

/-- R107, R111, R114, R128, R131, R137, R141: every step keeps the laws of the links and of the scrub contexts. R104: every step
keeps the bounds of what waits in a transmitter; one request for each tag rests on log entry 9 where an older request of a
reused tag still waits. -/
def Obligations.LinkScrubAndTransmitterLawsKept : Prop :=
  (∀ s t : State, s.LinkLaw → s.ScrubLaw → step s = .next t → t.LinkLaw ∧ t.ScrubLaw) ∧
  (∀ s t : State, s.TransmitterLaw → step s = .next t → t.TransmitterLaw)

/-- R14: every step keeps the law of the CET: counts 1 to 65535, no two equal keys, at most 96 pinned. R42, R51: every step keeps
the law of the retirement list: no two valid entries overlap. R59, R65, R164, R165: every step keeps the bound of the log and
the law of the engine and its purge. R15, R68, R107, R127, R144, R147, R149: every step keeps every setting at one of its
values. -/
def Obligations.TableAndEngineLawsKept : Prop :=
  (∀ s t : State, s.CetLaw → step s = .next t → t.CetLaw) ∧
  (∀ s t : State, s.ListLaw → step s = .next t → t.ListLaw) ∧
  (∀ s t : State, s.UelLaw → s.EngineLaw → step s = .next t → t.UelLaw ∧ t.EngineLaw) ∧
  (∀ s t : State, s.SettingsLaw → step s = .next t → t.SettingsLaw)

/-- R31, R147, R148, R151: every step from a lawful state keeps the laws of the verify queue, of the read records and of the reads
counted. R9, R46, R61, R127: it keeps the geometry law and the purge law: a CET entry inside a CONFIRMED range exists only at an
index that the running purge of that range has not visited. -/
def Obligations.VerifyAndPurgeLawsKept : Prop :=
  (∀ s t : State, s.Lawful → step s = .next t → t.QueueLaw ∧ t.RecordLaw ∧ t.ReadsLaw) ∧
  (∀ s t : State, s.Lawful → step s = .next t → t.GeometryLaw ∧ t.PurgeLaw)
end

