-- ==== Sys2Proof/Laws/State.lean ====
section
/-! SUPPORT. The fields of a state after each named update: one lemma for each field and each update. -/

namespace Sys2Proof.Machine

variable (s : State)

@[simp] theorem State.setRst_rst (x : Bool) : (s.setRst x).rst = x := rfl
@[simp] theorem State.setRst_clock (x : Bool) : (s.setRst x).clock = s.clock := rfl
@[simp] theorem State.setRst_cet (x : Bool) : (s.setRst x).cet = s.cet := rfl
@[simp] theorem State.setRst_retire (x : Bool) : (s.setRst x).retire = s.retire := rfl
@[simp] theorem State.setRst_uel (x : Bool) : (s.setRst x).uel = s.uel := rfl
@[simp] theorem State.setRst_queues (x : Bool) : (s.setRst x).queues = s.queues := rfl
@[simp] theorem State.setRst_intake (x : Bool) : (s.setRst x).intake = s.intake := rfl
@[simp] theorem State.setRst_classifier (x : Bool) : (s.setRst x).classifier = s.classifier := rfl
@[simp] theorem State.setRst_links (x : Bool) : (s.setRst x).links = s.links := rfl
@[simp] theorem State.setRst_txs (x : Bool) : (s.setRst x).txs = s.txs := rfl
@[simp] theorem State.setRst_batch (x : Bool) : (s.setRst x).batch = s.batch := rfl
@[simp] theorem State.setRst_scrubs (x : Bool) : (s.setRst x).scrubs = s.scrubs := rfl
@[simp] theorem State.setRst_verify (x : Bool) : (s.setRst x).verify = s.verify := rfl
@[simp] theorem State.setRst_engine (x : Bool) : (s.setRst x).engine = s.engine := rfl
@[simp] theorem State.setRst_sysMail (x : Bool) : (s.setRst x).sysMail = s.sysMail := rfl
@[simp] theorem State.setRst_svcMail (x : Bool) : (s.setRst x).svcMail = s.svcMail := rfl
@[simp] theorem State.setRst_events (x : Bool) : (s.setRst x).events = s.events := rfl
@[simp] theorem State.setRst_portData (x : Bool) : (s.setRst x).portData = s.portData := rfl
@[simp] theorem State.setRst_pending (x : Bool) : (s.setRst x).pending = s.pending := rfl

@[simp] theorem State.setClock_rst (x : Clock) : (s.setClock x).rst = s.rst := rfl
@[simp] theorem State.setClock_clock (x : Clock) : (s.setClock x).clock = x := rfl
@[simp] theorem State.setClock_cet (x : Clock) : (s.setClock x).cet = s.cet := rfl
@[simp] theorem State.setClock_retire (x : Clock) : (s.setClock x).retire = s.retire := rfl
@[simp] theorem State.setClock_uel (x : Clock) : (s.setClock x).uel = s.uel := rfl
@[simp] theorem State.setClock_queues (x : Clock) : (s.setClock x).queues = s.queues := rfl
@[simp] theorem State.setClock_intake (x : Clock) : (s.setClock x).intake = s.intake := rfl
@[simp] theorem State.setClock_classifier (x : Clock) : (s.setClock x).classifier = s.classifier := rfl
@[simp] theorem State.setClock_links (x : Clock) : (s.setClock x).links = s.links := rfl
@[simp] theorem State.setClock_txs (x : Clock) : (s.setClock x).txs = s.txs := rfl
@[simp] theorem State.setClock_batch (x : Clock) : (s.setClock x).batch = s.batch := rfl
@[simp] theorem State.setClock_scrubs (x : Clock) : (s.setClock x).scrubs = s.scrubs := rfl
@[simp] theorem State.setClock_verify (x : Clock) : (s.setClock x).verify = s.verify := rfl
@[simp] theorem State.setClock_engine (x : Clock) : (s.setClock x).engine = s.engine := rfl
@[simp] theorem State.setClock_sysMail (x : Clock) : (s.setClock x).sysMail = s.sysMail := rfl
@[simp] theorem State.setClock_svcMail (x : Clock) : (s.setClock x).svcMail = s.svcMail := rfl
@[simp] theorem State.setClock_events (x : Clock) : (s.setClock x).events = s.events := rfl
@[simp] theorem State.setClock_portData (x : Clock) : (s.setClock x).portData = s.portData := rfl
@[simp] theorem State.setClock_pending (x : Clock) : (s.setClock x).pending = s.pending := rfl

@[simp] theorem State.setCet_rst (x : Cet) : (s.setCet x).rst = s.rst := rfl
@[simp] theorem State.setCet_clock (x : Cet) : (s.setCet x).clock = s.clock := rfl
@[simp] theorem State.setCet_cet (x : Cet) : (s.setCet x).cet = x := rfl
@[simp] theorem State.setCet_retire (x : Cet) : (s.setCet x).retire = s.retire := rfl
@[simp] theorem State.setCet_uel (x : Cet) : (s.setCet x).uel = s.uel := rfl
@[simp] theorem State.setCet_queues (x : Cet) : (s.setCet x).queues = s.queues := rfl
@[simp] theorem State.setCet_intake (x : Cet) : (s.setCet x).intake = s.intake := rfl
@[simp] theorem State.setCet_classifier (x : Cet) : (s.setCet x).classifier = s.classifier := rfl
@[simp] theorem State.setCet_links (x : Cet) : (s.setCet x).links = s.links := rfl
@[simp] theorem State.setCet_txs (x : Cet) : (s.setCet x).txs = s.txs := rfl
@[simp] theorem State.setCet_batch (x : Cet) : (s.setCet x).batch = s.batch := rfl
@[simp] theorem State.setCet_scrubs (x : Cet) : (s.setCet x).scrubs = s.scrubs := rfl
@[simp] theorem State.setCet_verify (x : Cet) : (s.setCet x).verify = s.verify := rfl
@[simp] theorem State.setCet_engine (x : Cet) : (s.setCet x).engine = s.engine := rfl
@[simp] theorem State.setCet_sysMail (x : Cet) : (s.setCet x).sysMail = s.sysMail := rfl
@[simp] theorem State.setCet_svcMail (x : Cet) : (s.setCet x).svcMail = s.svcMail := rfl
@[simp] theorem State.setCet_events (x : Cet) : (s.setCet x).events = s.events := rfl
@[simp] theorem State.setCet_portData (x : Cet) : (s.setCet x).portData = s.portData := rfl
@[simp] theorem State.setCet_pending (x : Cet) : (s.setCet x).pending = s.pending := rfl

@[simp] theorem State.setRetire_rst (x : RetireList) : (s.setRetire x).rst = s.rst := rfl
@[simp] theorem State.setRetire_clock (x : RetireList) : (s.setRetire x).clock = s.clock := rfl
@[simp] theorem State.setRetire_cet (x : RetireList) : (s.setRetire x).cet = s.cet := rfl
@[simp] theorem State.setRetire_retire (x : RetireList) : (s.setRetire x).retire = x := rfl
@[simp] theorem State.setRetire_uel (x : RetireList) : (s.setRetire x).uel = s.uel := rfl
@[simp] theorem State.setRetire_queues (x : RetireList) : (s.setRetire x).queues = s.queues := rfl
@[simp] theorem State.setRetire_intake (x : RetireList) : (s.setRetire x).intake = s.intake := rfl
@[simp] theorem State.setRetire_classifier (x : RetireList) : (s.setRetire x).classifier = s.classifier := rfl
@[simp] theorem State.setRetire_links (x : RetireList) : (s.setRetire x).links = s.links := rfl
@[simp] theorem State.setRetire_txs (x : RetireList) : (s.setRetire x).txs = s.txs := rfl
@[simp] theorem State.setRetire_batch (x : RetireList) : (s.setRetire x).batch = s.batch := rfl
@[simp] theorem State.setRetire_scrubs (x : RetireList) : (s.setRetire x).scrubs = s.scrubs := rfl
@[simp] theorem State.setRetire_verify (x : RetireList) : (s.setRetire x).verify = s.verify := rfl
@[simp] theorem State.setRetire_engine (x : RetireList) : (s.setRetire x).engine = s.engine := rfl
@[simp] theorem State.setRetire_sysMail (x : RetireList) : (s.setRetire x).sysMail = s.sysMail := rfl
@[simp] theorem State.setRetire_svcMail (x : RetireList) : (s.setRetire x).svcMail = s.svcMail := rfl
@[simp] theorem State.setRetire_events (x : RetireList) : (s.setRetire x).events = s.events := rfl
@[simp] theorem State.setRetire_portData (x : RetireList) : (s.setRetire x).portData = s.portData := rfl
@[simp] theorem State.setRetire_pending (x : RetireList) : (s.setRetire x).pending = s.pending := rfl

@[simp] theorem State.setUel_rst (x : Uel) : (s.setUel x).rst = s.rst := rfl
@[simp] theorem State.setUel_clock (x : Uel) : (s.setUel x).clock = s.clock := rfl
@[simp] theorem State.setUel_cet (x : Uel) : (s.setUel x).cet = s.cet := rfl
@[simp] theorem State.setUel_retire (x : Uel) : (s.setUel x).retire = s.retire := rfl
@[simp] theorem State.setUel_uel (x : Uel) : (s.setUel x).uel = x := rfl
@[simp] theorem State.setUel_queues (x : Uel) : (s.setUel x).queues = s.queues := rfl
@[simp] theorem State.setUel_intake (x : Uel) : (s.setUel x).intake = s.intake := rfl
@[simp] theorem State.setUel_classifier (x : Uel) : (s.setUel x).classifier = s.classifier := rfl
@[simp] theorem State.setUel_links (x : Uel) : (s.setUel x).links = s.links := rfl
@[simp] theorem State.setUel_txs (x : Uel) : (s.setUel x).txs = s.txs := rfl
@[simp] theorem State.setUel_batch (x : Uel) : (s.setUel x).batch = s.batch := rfl
@[simp] theorem State.setUel_scrubs (x : Uel) : (s.setUel x).scrubs = s.scrubs := rfl
@[simp] theorem State.setUel_verify (x : Uel) : (s.setUel x).verify = s.verify := rfl
@[simp] theorem State.setUel_engine (x : Uel) : (s.setUel x).engine = s.engine := rfl
@[simp] theorem State.setUel_sysMail (x : Uel) : (s.setUel x).sysMail = s.sysMail := rfl
@[simp] theorem State.setUel_svcMail (x : Uel) : (s.setUel x).svcMail = s.svcMail := rfl
@[simp] theorem State.setUel_events (x : Uel) : (s.setUel x).events = s.events := rfl
@[simp] theorem State.setUel_portData (x : Uel) : (s.setUel x).portData = s.portData := rfl
@[simp] theorem State.setUel_pending (x : Uel) : (s.setUel x).pending = s.pending := rfl

@[simp] theorem State.setQueues_rst (x : Table (List Report) 8) : (s.setQueues x).rst = s.rst := rfl
@[simp] theorem State.setQueues_clock (x : Table (List Report) 8) : (s.setQueues x).clock = s.clock := rfl
@[simp] theorem State.setQueues_cet (x : Table (List Report) 8) : (s.setQueues x).cet = s.cet := rfl
@[simp] theorem State.setQueues_retire (x : Table (List Report) 8) : (s.setQueues x).retire = s.retire := rfl
@[simp] theorem State.setQueues_uel (x : Table (List Report) 8) : (s.setQueues x).uel = s.uel := rfl
@[simp] theorem State.setQueues_queues (x : Table (List Report) 8) : (s.setQueues x).queues = x := rfl
@[simp] theorem State.setQueues_intake (x : Table (List Report) 8) : (s.setQueues x).intake = s.intake := rfl
@[simp] theorem State.setQueues_classifier (x : Table (List Report) 8) : (s.setQueues x).classifier = s.classifier := rfl
@[simp] theorem State.setQueues_links (x : Table (List Report) 8) : (s.setQueues x).links = s.links := rfl
@[simp] theorem State.setQueues_txs (x : Table (List Report) 8) : (s.setQueues x).txs = s.txs := rfl
@[simp] theorem State.setQueues_batch (x : Table (List Report) 8) : (s.setQueues x).batch = s.batch := rfl
@[simp] theorem State.setQueues_scrubs (x : Table (List Report) 8) : (s.setQueues x).scrubs = s.scrubs := rfl
@[simp] theorem State.setQueues_verify (x : Table (List Report) 8) : (s.setQueues x).verify = s.verify := rfl
@[simp] theorem State.setQueues_engine (x : Table (List Report) 8) : (s.setQueues x).engine = s.engine := rfl
@[simp] theorem State.setQueues_sysMail (x : Table (List Report) 8) : (s.setQueues x).sysMail = s.sysMail := rfl
@[simp] theorem State.setQueues_svcMail (x : Table (List Report) 8) : (s.setQueues x).svcMail = s.svcMail := rfl
@[simp] theorem State.setQueues_events (x : Table (List Report) 8) : (s.setQueues x).events = s.events := rfl
@[simp] theorem State.setQueues_portData (x : Table (List Report) 8) : (s.setQueues x).portData = s.portData := rfl
@[simp] theorem State.setQueues_pending (x : Table (List Report) 8) : (s.setQueues x).pending = s.pending := rfl

@[simp] theorem State.setIntake_rst (x : Intake) : (s.setIntake x).rst = s.rst := rfl
@[simp] theorem State.setIntake_clock (x : Intake) : (s.setIntake x).clock = s.clock := rfl
@[simp] theorem State.setIntake_cet (x : Intake) : (s.setIntake x).cet = s.cet := rfl
@[simp] theorem State.setIntake_retire (x : Intake) : (s.setIntake x).retire = s.retire := rfl
@[simp] theorem State.setIntake_uel (x : Intake) : (s.setIntake x).uel = s.uel := rfl
@[simp] theorem State.setIntake_queues (x : Intake) : (s.setIntake x).queues = s.queues := rfl
@[simp] theorem State.setIntake_intake (x : Intake) : (s.setIntake x).intake = x := rfl
@[simp] theorem State.setIntake_classifier (x : Intake) : (s.setIntake x).classifier = s.classifier := rfl
@[simp] theorem State.setIntake_links (x : Intake) : (s.setIntake x).links = s.links := rfl
@[simp] theorem State.setIntake_txs (x : Intake) : (s.setIntake x).txs = s.txs := rfl
@[simp] theorem State.setIntake_batch (x : Intake) : (s.setIntake x).batch = s.batch := rfl
@[simp] theorem State.setIntake_scrubs (x : Intake) : (s.setIntake x).scrubs = s.scrubs := rfl
@[simp] theorem State.setIntake_verify (x : Intake) : (s.setIntake x).verify = s.verify := rfl
@[simp] theorem State.setIntake_engine (x : Intake) : (s.setIntake x).engine = s.engine := rfl
@[simp] theorem State.setIntake_sysMail (x : Intake) : (s.setIntake x).sysMail = s.sysMail := rfl
@[simp] theorem State.setIntake_svcMail (x : Intake) : (s.setIntake x).svcMail = s.svcMail := rfl
@[simp] theorem State.setIntake_events (x : Intake) : (s.setIntake x).events = s.events := rfl
@[simp] theorem State.setIntake_portData (x : Intake) : (s.setIntake x).portData = s.portData := rfl
@[simp] theorem State.setIntake_pending (x : Intake) : (s.setIntake x).pending = s.pending := rfl

@[simp] theorem State.setClassifier_rst (x : Table ClassifierCounters 8) : (s.setClassifier x).rst = s.rst := rfl
@[simp] theorem State.setClassifier_clock (x : Table ClassifierCounters 8) : (s.setClassifier x).clock = s.clock := rfl
@[simp] theorem State.setClassifier_cet (x : Table ClassifierCounters 8) : (s.setClassifier x).cet = s.cet := rfl
@[simp] theorem State.setClassifier_retire (x : Table ClassifierCounters 8) : (s.setClassifier x).retire = s.retire := rfl
@[simp] theorem State.setClassifier_uel (x : Table ClassifierCounters 8) : (s.setClassifier x).uel = s.uel := rfl
@[simp] theorem State.setClassifier_queues (x : Table ClassifierCounters 8) : (s.setClassifier x).queues = s.queues := rfl
@[simp] theorem State.setClassifier_intake (x : Table ClassifierCounters 8) : (s.setClassifier x).intake = s.intake := rfl
@[simp] theorem State.setClassifier_classifier (x : Table ClassifierCounters 8) : (s.setClassifier x).classifier = x := rfl
@[simp] theorem State.setClassifier_links (x : Table ClassifierCounters 8) : (s.setClassifier x).links = s.links := rfl
@[simp] theorem State.setClassifier_txs (x : Table ClassifierCounters 8) : (s.setClassifier x).txs = s.txs := rfl
@[simp] theorem State.setClassifier_batch (x : Table ClassifierCounters 8) : (s.setClassifier x).batch = s.batch := rfl
@[simp] theorem State.setClassifier_scrubs (x : Table ClassifierCounters 8) : (s.setClassifier x).scrubs = s.scrubs := rfl
@[simp] theorem State.setClassifier_verify (x : Table ClassifierCounters 8) : (s.setClassifier x).verify = s.verify := rfl
@[simp] theorem State.setClassifier_engine (x : Table ClassifierCounters 8) : (s.setClassifier x).engine = s.engine := rfl
@[simp] theorem State.setClassifier_sysMail (x : Table ClassifierCounters 8) : (s.setClassifier x).sysMail = s.sysMail := rfl
@[simp] theorem State.setClassifier_svcMail (x : Table ClassifierCounters 8) : (s.setClassifier x).svcMail = s.svcMail := rfl
@[simp] theorem State.setClassifier_events (x : Table ClassifierCounters 8) : (s.setClassifier x).events = s.events := rfl
@[simp] theorem State.setClassifier_portData (x : Table ClassifierCounters 8) : (s.setClassifier x).portData = s.portData := rfl
@[simp] theorem State.setClassifier_pending (x : Table ClassifierCounters 8) : (s.setClassifier x).pending = s.pending := rfl

@[simp] theorem State.setLinks_rst (x : Table Link 8) : (s.setLinks x).rst = s.rst := rfl
@[simp] theorem State.setLinks_clock (x : Table Link 8) : (s.setLinks x).clock = s.clock := rfl
@[simp] theorem State.setLinks_cet (x : Table Link 8) : (s.setLinks x).cet = s.cet := rfl
@[simp] theorem State.setLinks_retire (x : Table Link 8) : (s.setLinks x).retire = s.retire := rfl
@[simp] theorem State.setLinks_uel (x : Table Link 8) : (s.setLinks x).uel = s.uel := rfl
@[simp] theorem State.setLinks_queues (x : Table Link 8) : (s.setLinks x).queues = s.queues := rfl
@[simp] theorem State.setLinks_intake (x : Table Link 8) : (s.setLinks x).intake = s.intake := rfl
@[simp] theorem State.setLinks_classifier (x : Table Link 8) : (s.setLinks x).classifier = s.classifier := rfl
@[simp] theorem State.setLinks_links (x : Table Link 8) : (s.setLinks x).links = x := rfl
@[simp] theorem State.setLinks_txs (x : Table Link 8) : (s.setLinks x).txs = s.txs := rfl
@[simp] theorem State.setLinks_batch (x : Table Link 8) : (s.setLinks x).batch = s.batch := rfl
@[simp] theorem State.setLinks_scrubs (x : Table Link 8) : (s.setLinks x).scrubs = s.scrubs := rfl
@[simp] theorem State.setLinks_verify (x : Table Link 8) : (s.setLinks x).verify = s.verify := rfl
@[simp] theorem State.setLinks_engine (x : Table Link 8) : (s.setLinks x).engine = s.engine := rfl
@[simp] theorem State.setLinks_sysMail (x : Table Link 8) : (s.setLinks x).sysMail = s.sysMail := rfl
@[simp] theorem State.setLinks_svcMail (x : Table Link 8) : (s.setLinks x).svcMail = s.svcMail := rfl
@[simp] theorem State.setLinks_events (x : Table Link 8) : (s.setLinks x).events = s.events := rfl
@[simp] theorem State.setLinks_portData (x : Table Link 8) : (s.setLinks x).portData = s.portData := rfl
@[simp] theorem State.setLinks_pending (x : Table Link 8) : (s.setLinks x).pending = s.pending := rfl

@[simp] theorem State.setTxs_rst (x : Table Transmitter 8) : (s.setTxs x).rst = s.rst := rfl
@[simp] theorem State.setTxs_clock (x : Table Transmitter 8) : (s.setTxs x).clock = s.clock := rfl
@[simp] theorem State.setTxs_cet (x : Table Transmitter 8) : (s.setTxs x).cet = s.cet := rfl
@[simp] theorem State.setTxs_retire (x : Table Transmitter 8) : (s.setTxs x).retire = s.retire := rfl
@[simp] theorem State.setTxs_uel (x : Table Transmitter 8) : (s.setTxs x).uel = s.uel := rfl
@[simp] theorem State.setTxs_queues (x : Table Transmitter 8) : (s.setTxs x).queues = s.queues := rfl
@[simp] theorem State.setTxs_intake (x : Table Transmitter 8) : (s.setTxs x).intake = s.intake := rfl
@[simp] theorem State.setTxs_classifier (x : Table Transmitter 8) : (s.setTxs x).classifier = s.classifier := rfl
@[simp] theorem State.setTxs_links (x : Table Transmitter 8) : (s.setTxs x).links = s.links := rfl
@[simp] theorem State.setTxs_txs (x : Table Transmitter 8) : (s.setTxs x).txs = x := rfl
@[simp] theorem State.setTxs_batch (x : Table Transmitter 8) : (s.setTxs x).batch = s.batch := rfl
@[simp] theorem State.setTxs_scrubs (x : Table Transmitter 8) : (s.setTxs x).scrubs = s.scrubs := rfl
@[simp] theorem State.setTxs_verify (x : Table Transmitter 8) : (s.setTxs x).verify = s.verify := rfl
@[simp] theorem State.setTxs_engine (x : Table Transmitter 8) : (s.setTxs x).engine = s.engine := rfl
@[simp] theorem State.setTxs_sysMail (x : Table Transmitter 8) : (s.setTxs x).sysMail = s.sysMail := rfl
@[simp] theorem State.setTxs_svcMail (x : Table Transmitter 8) : (s.setTxs x).svcMail = s.svcMail := rfl
@[simp] theorem State.setTxs_events (x : Table Transmitter 8) : (s.setTxs x).events = s.events := rfl
@[simp] theorem State.setTxs_portData (x : Table Transmitter 8) : (s.setTxs x).portData = s.portData := rfl
@[simp] theorem State.setTxs_pending (x : Table Transmitter 8) : (s.setTxs x).pending = s.pending := rfl

@[simp] theorem State.setBatch_rst (x : Nat) : (s.setBatch x).rst = s.rst := rfl
@[simp] theorem State.setBatch_clock (x : Nat) : (s.setBatch x).clock = s.clock := rfl
@[simp] theorem State.setBatch_cet (x : Nat) : (s.setBatch x).cet = s.cet := rfl
@[simp] theorem State.setBatch_retire (x : Nat) : (s.setBatch x).retire = s.retire := rfl
@[simp] theorem State.setBatch_uel (x : Nat) : (s.setBatch x).uel = s.uel := rfl
@[simp] theorem State.setBatch_queues (x : Nat) : (s.setBatch x).queues = s.queues := rfl
@[simp] theorem State.setBatch_intake (x : Nat) : (s.setBatch x).intake = s.intake := rfl
@[simp] theorem State.setBatch_classifier (x : Nat) : (s.setBatch x).classifier = s.classifier := rfl
@[simp] theorem State.setBatch_links (x : Nat) : (s.setBatch x).links = s.links := rfl
@[simp] theorem State.setBatch_txs (x : Nat) : (s.setBatch x).txs = s.txs := rfl
@[simp] theorem State.setBatch_batch (x : Nat) : (s.setBatch x).batch = x := rfl
@[simp] theorem State.setBatch_scrubs (x : Nat) : (s.setBatch x).scrubs = s.scrubs := rfl
@[simp] theorem State.setBatch_verify (x : Nat) : (s.setBatch x).verify = s.verify := rfl
@[simp] theorem State.setBatch_engine (x : Nat) : (s.setBatch x).engine = s.engine := rfl
@[simp] theorem State.setBatch_sysMail (x : Nat) : (s.setBatch x).sysMail = s.sysMail := rfl
@[simp] theorem State.setBatch_svcMail (x : Nat) : (s.setBatch x).svcMail = s.svcMail := rfl
@[simp] theorem State.setBatch_events (x : Nat) : (s.setBatch x).events = s.events := rfl
@[simp] theorem State.setBatch_portData (x : Nat) : (s.setBatch x).portData = s.portData := rfl
@[simp] theorem State.setBatch_pending (x : Nat) : (s.setBatch x).pending = s.pending := rfl

@[simp] theorem State.setScrubs_rst (x : Table Scrub 8) : (s.setScrubs x).rst = s.rst := rfl
@[simp] theorem State.setScrubs_clock (x : Table Scrub 8) : (s.setScrubs x).clock = s.clock := rfl
@[simp] theorem State.setScrubs_cet (x : Table Scrub 8) : (s.setScrubs x).cet = s.cet := rfl
@[simp] theorem State.setScrubs_retire (x : Table Scrub 8) : (s.setScrubs x).retire = s.retire := rfl
@[simp] theorem State.setScrubs_uel (x : Table Scrub 8) : (s.setScrubs x).uel = s.uel := rfl
@[simp] theorem State.setScrubs_queues (x : Table Scrub 8) : (s.setScrubs x).queues = s.queues := rfl
@[simp] theorem State.setScrubs_intake (x : Table Scrub 8) : (s.setScrubs x).intake = s.intake := rfl
@[simp] theorem State.setScrubs_classifier (x : Table Scrub 8) : (s.setScrubs x).classifier = s.classifier := rfl
@[simp] theorem State.setScrubs_links (x : Table Scrub 8) : (s.setScrubs x).links = s.links := rfl
@[simp] theorem State.setScrubs_txs (x : Table Scrub 8) : (s.setScrubs x).txs = s.txs := rfl
@[simp] theorem State.setScrubs_batch (x : Table Scrub 8) : (s.setScrubs x).batch = s.batch := rfl
@[simp] theorem State.setScrubs_scrubs (x : Table Scrub 8) : (s.setScrubs x).scrubs = x := rfl
@[simp] theorem State.setScrubs_verify (x : Table Scrub 8) : (s.setScrubs x).verify = s.verify := rfl
@[simp] theorem State.setScrubs_engine (x : Table Scrub 8) : (s.setScrubs x).engine = s.engine := rfl
@[simp] theorem State.setScrubs_sysMail (x : Table Scrub 8) : (s.setScrubs x).sysMail = s.sysMail := rfl
@[simp] theorem State.setScrubs_svcMail (x : Table Scrub 8) : (s.setScrubs x).svcMail = s.svcMail := rfl
@[simp] theorem State.setScrubs_events (x : Table Scrub 8) : (s.setScrubs x).events = s.events := rfl
@[simp] theorem State.setScrubs_portData (x : Table Scrub 8) : (s.setScrubs x).portData = s.portData := rfl
@[simp] theorem State.setScrubs_pending (x : Table Scrub 8) : (s.setScrubs x).pending = s.pending := rfl

@[simp] theorem State.setVerify_rst (x : VerifyQueue) : (s.setVerify x).rst = s.rst := rfl
@[simp] theorem State.setVerify_clock (x : VerifyQueue) : (s.setVerify x).clock = s.clock := rfl
@[simp] theorem State.setVerify_cet (x : VerifyQueue) : (s.setVerify x).cet = s.cet := rfl
@[simp] theorem State.setVerify_retire (x : VerifyQueue) : (s.setVerify x).retire = s.retire := rfl
@[simp] theorem State.setVerify_uel (x : VerifyQueue) : (s.setVerify x).uel = s.uel := rfl
@[simp] theorem State.setVerify_queues (x : VerifyQueue) : (s.setVerify x).queues = s.queues := rfl
@[simp] theorem State.setVerify_intake (x : VerifyQueue) : (s.setVerify x).intake = s.intake := rfl
@[simp] theorem State.setVerify_classifier (x : VerifyQueue) : (s.setVerify x).classifier = s.classifier := rfl
@[simp] theorem State.setVerify_links (x : VerifyQueue) : (s.setVerify x).links = s.links := rfl
@[simp] theorem State.setVerify_txs (x : VerifyQueue) : (s.setVerify x).txs = s.txs := rfl
@[simp] theorem State.setVerify_batch (x : VerifyQueue) : (s.setVerify x).batch = s.batch := rfl
@[simp] theorem State.setVerify_scrubs (x : VerifyQueue) : (s.setVerify x).scrubs = s.scrubs := rfl
@[simp] theorem State.setVerify_verify (x : VerifyQueue) : (s.setVerify x).verify = x := rfl
@[simp] theorem State.setVerify_engine (x : VerifyQueue) : (s.setVerify x).engine = s.engine := rfl
@[simp] theorem State.setVerify_sysMail (x : VerifyQueue) : (s.setVerify x).sysMail = s.sysMail := rfl
@[simp] theorem State.setVerify_svcMail (x : VerifyQueue) : (s.setVerify x).svcMail = s.svcMail := rfl
@[simp] theorem State.setVerify_events (x : VerifyQueue) : (s.setVerify x).events = s.events := rfl
@[simp] theorem State.setVerify_portData (x : VerifyQueue) : (s.setVerify x).portData = s.portData := rfl
@[simp] theorem State.setVerify_pending (x : VerifyQueue) : (s.setVerify x).pending = s.pending := rfl

@[simp] theorem State.setEngine_rst (x : Engine) : (s.setEngine x).rst = s.rst := rfl
@[simp] theorem State.setEngine_clock (x : Engine) : (s.setEngine x).clock = s.clock := rfl
@[simp] theorem State.setEngine_cet (x : Engine) : (s.setEngine x).cet = s.cet := rfl
@[simp] theorem State.setEngine_retire (x : Engine) : (s.setEngine x).retire = s.retire := rfl
@[simp] theorem State.setEngine_uel (x : Engine) : (s.setEngine x).uel = s.uel := rfl
@[simp] theorem State.setEngine_queues (x : Engine) : (s.setEngine x).queues = s.queues := rfl
@[simp] theorem State.setEngine_intake (x : Engine) : (s.setEngine x).intake = s.intake := rfl
@[simp] theorem State.setEngine_classifier (x : Engine) : (s.setEngine x).classifier = s.classifier := rfl
@[simp] theorem State.setEngine_links (x : Engine) : (s.setEngine x).links = s.links := rfl
@[simp] theorem State.setEngine_txs (x : Engine) : (s.setEngine x).txs = s.txs := rfl
@[simp] theorem State.setEngine_batch (x : Engine) : (s.setEngine x).batch = s.batch := rfl
@[simp] theorem State.setEngine_scrubs (x : Engine) : (s.setEngine x).scrubs = s.scrubs := rfl
@[simp] theorem State.setEngine_verify (x : Engine) : (s.setEngine x).verify = s.verify := rfl
@[simp] theorem State.setEngine_engine (x : Engine) : (s.setEngine x).engine = x := rfl
@[simp] theorem State.setEngine_sysMail (x : Engine) : (s.setEngine x).sysMail = s.sysMail := rfl
@[simp] theorem State.setEngine_svcMail (x : Engine) : (s.setEngine x).svcMail = s.svcMail := rfl
@[simp] theorem State.setEngine_events (x : Engine) : (s.setEngine x).events = s.events := rfl
@[simp] theorem State.setEngine_portData (x : Engine) : (s.setEngine x).portData = s.portData := rfl
@[simp] theorem State.setEngine_pending (x : Engine) : (s.setEngine x).pending = s.pending := rfl

@[simp] theorem State.setSysMail_rst (x : Mailbox) : (s.setSysMail x).rst = s.rst := rfl
@[simp] theorem State.setSysMail_clock (x : Mailbox) : (s.setSysMail x).clock = s.clock := rfl
@[simp] theorem State.setSysMail_cet (x : Mailbox) : (s.setSysMail x).cet = s.cet := rfl
@[simp] theorem State.setSysMail_retire (x : Mailbox) : (s.setSysMail x).retire = s.retire := rfl
@[simp] theorem State.setSysMail_uel (x : Mailbox) : (s.setSysMail x).uel = s.uel := rfl
@[simp] theorem State.setSysMail_queues (x : Mailbox) : (s.setSysMail x).queues = s.queues := rfl
@[simp] theorem State.setSysMail_intake (x : Mailbox) : (s.setSysMail x).intake = s.intake := rfl
@[simp] theorem State.setSysMail_classifier (x : Mailbox) : (s.setSysMail x).classifier = s.classifier := rfl
@[simp] theorem State.setSysMail_links (x : Mailbox) : (s.setSysMail x).links = s.links := rfl
@[simp] theorem State.setSysMail_txs (x : Mailbox) : (s.setSysMail x).txs = s.txs := rfl
@[simp] theorem State.setSysMail_batch (x : Mailbox) : (s.setSysMail x).batch = s.batch := rfl
@[simp] theorem State.setSysMail_scrubs (x : Mailbox) : (s.setSysMail x).scrubs = s.scrubs := rfl
@[simp] theorem State.setSysMail_verify (x : Mailbox) : (s.setSysMail x).verify = s.verify := rfl
@[simp] theorem State.setSysMail_engine (x : Mailbox) : (s.setSysMail x).engine = s.engine := rfl
@[simp] theorem State.setSysMail_sysMail (x : Mailbox) : (s.setSysMail x).sysMail = x := rfl
@[simp] theorem State.setSysMail_svcMail (x : Mailbox) : (s.setSysMail x).svcMail = s.svcMail := rfl
@[simp] theorem State.setSysMail_events (x : Mailbox) : (s.setSysMail x).events = s.events := rfl
@[simp] theorem State.setSysMail_portData (x : Mailbox) : (s.setSysMail x).portData = s.portData := rfl
@[simp] theorem State.setSysMail_pending (x : Mailbox) : (s.setSysMail x).pending = s.pending := rfl

@[simp] theorem State.setSvcMail_rst (x : Mailbox) : (s.setSvcMail x).rst = s.rst := rfl
@[simp] theorem State.setSvcMail_clock (x : Mailbox) : (s.setSvcMail x).clock = s.clock := rfl
@[simp] theorem State.setSvcMail_cet (x : Mailbox) : (s.setSvcMail x).cet = s.cet := rfl
@[simp] theorem State.setSvcMail_retire (x : Mailbox) : (s.setSvcMail x).retire = s.retire := rfl
@[simp] theorem State.setSvcMail_uel (x : Mailbox) : (s.setSvcMail x).uel = s.uel := rfl
@[simp] theorem State.setSvcMail_queues (x : Mailbox) : (s.setSvcMail x).queues = s.queues := rfl
@[simp] theorem State.setSvcMail_intake (x : Mailbox) : (s.setSvcMail x).intake = s.intake := rfl
@[simp] theorem State.setSvcMail_classifier (x : Mailbox) : (s.setSvcMail x).classifier = s.classifier := rfl
@[simp] theorem State.setSvcMail_links (x : Mailbox) : (s.setSvcMail x).links = s.links := rfl
@[simp] theorem State.setSvcMail_txs (x : Mailbox) : (s.setSvcMail x).txs = s.txs := rfl
@[simp] theorem State.setSvcMail_batch (x : Mailbox) : (s.setSvcMail x).batch = s.batch := rfl
@[simp] theorem State.setSvcMail_scrubs (x : Mailbox) : (s.setSvcMail x).scrubs = s.scrubs := rfl
@[simp] theorem State.setSvcMail_verify (x : Mailbox) : (s.setSvcMail x).verify = s.verify := rfl
@[simp] theorem State.setSvcMail_engine (x : Mailbox) : (s.setSvcMail x).engine = s.engine := rfl
@[simp] theorem State.setSvcMail_sysMail (x : Mailbox) : (s.setSvcMail x).sysMail = s.sysMail := rfl
@[simp] theorem State.setSvcMail_svcMail (x : Mailbox) : (s.setSvcMail x).svcMail = x := rfl
@[simp] theorem State.setSvcMail_events (x : Mailbox) : (s.setSvcMail x).events = s.events := rfl
@[simp] theorem State.setSvcMail_portData (x : Mailbox) : (s.setSvcMail x).portData = s.portData := rfl
@[simp] theorem State.setSvcMail_pending (x : Mailbox) : (s.setSvcMail x).pending = s.pending := rfl

@[simp] theorem State.setEvents_rst (x : EventUnit) : (s.setEvents x).rst = s.rst := rfl
@[simp] theorem State.setEvents_clock (x : EventUnit) : (s.setEvents x).clock = s.clock := rfl
@[simp] theorem State.setEvents_cet (x : EventUnit) : (s.setEvents x).cet = s.cet := rfl
@[simp] theorem State.setEvents_retire (x : EventUnit) : (s.setEvents x).retire = s.retire := rfl
@[simp] theorem State.setEvents_uel (x : EventUnit) : (s.setEvents x).uel = s.uel := rfl
@[simp] theorem State.setEvents_queues (x : EventUnit) : (s.setEvents x).queues = s.queues := rfl
@[simp] theorem State.setEvents_intake (x : EventUnit) : (s.setEvents x).intake = s.intake := rfl
@[simp] theorem State.setEvents_classifier (x : EventUnit) : (s.setEvents x).classifier = s.classifier := rfl
@[simp] theorem State.setEvents_links (x : EventUnit) : (s.setEvents x).links = s.links := rfl
@[simp] theorem State.setEvents_txs (x : EventUnit) : (s.setEvents x).txs = s.txs := rfl
@[simp] theorem State.setEvents_batch (x : EventUnit) : (s.setEvents x).batch = s.batch := rfl
@[simp] theorem State.setEvents_scrubs (x : EventUnit) : (s.setEvents x).scrubs = s.scrubs := rfl
@[simp] theorem State.setEvents_verify (x : EventUnit) : (s.setEvents x).verify = s.verify := rfl
@[simp] theorem State.setEvents_engine (x : EventUnit) : (s.setEvents x).engine = s.engine := rfl
@[simp] theorem State.setEvents_sysMail (x : EventUnit) : (s.setEvents x).sysMail = s.sysMail := rfl
@[simp] theorem State.setEvents_svcMail (x : EventUnit) : (s.setEvents x).svcMail = s.svcMail := rfl
@[simp] theorem State.setEvents_events (x : EventUnit) : (s.setEvents x).events = x := rfl
@[simp] theorem State.setEvents_portData (x : EventUnit) : (s.setEvents x).portData = s.portData := rfl
@[simp] theorem State.setEvents_pending (x : EventUnit) : (s.setEvents x).pending = s.pending := rfl

@[simp] theorem State.setPortData_rst (x : PortData) : (s.setPortData x).rst = s.rst := rfl
@[simp] theorem State.setPortData_clock (x : PortData) : (s.setPortData x).clock = s.clock := rfl
@[simp] theorem State.setPortData_cet (x : PortData) : (s.setPortData x).cet = s.cet := rfl
@[simp] theorem State.setPortData_retire (x : PortData) : (s.setPortData x).retire = s.retire := rfl
@[simp] theorem State.setPortData_uel (x : PortData) : (s.setPortData x).uel = s.uel := rfl
@[simp] theorem State.setPortData_queues (x : PortData) : (s.setPortData x).queues = s.queues := rfl
@[simp] theorem State.setPortData_intake (x : PortData) : (s.setPortData x).intake = s.intake := rfl
@[simp] theorem State.setPortData_classifier (x : PortData) : (s.setPortData x).classifier = s.classifier := rfl
@[simp] theorem State.setPortData_links (x : PortData) : (s.setPortData x).links = s.links := rfl
@[simp] theorem State.setPortData_txs (x : PortData) : (s.setPortData x).txs = s.txs := rfl
@[simp] theorem State.setPortData_batch (x : PortData) : (s.setPortData x).batch = s.batch := rfl
@[simp] theorem State.setPortData_scrubs (x : PortData) : (s.setPortData x).scrubs = s.scrubs := rfl
@[simp] theorem State.setPortData_verify (x : PortData) : (s.setPortData x).verify = s.verify := rfl
@[simp] theorem State.setPortData_engine (x : PortData) : (s.setPortData x).engine = s.engine := rfl
@[simp] theorem State.setPortData_sysMail (x : PortData) : (s.setPortData x).sysMail = s.sysMail := rfl
@[simp] theorem State.setPortData_svcMail (x : PortData) : (s.setPortData x).svcMail = s.svcMail := rfl
@[simp] theorem State.setPortData_events (x : PortData) : (s.setPortData x).events = s.events := rfl
@[simp] theorem State.setPortData_portData (x : PortData) : (s.setPortData x).portData = x := rfl
@[simp] theorem State.setPortData_pending (x : PortData) : (s.setPortData x).pending = s.pending := rfl

@[simp] theorem State.setPending_rst (x : List Instr) : (s.setPending x).rst = s.rst := rfl
@[simp] theorem State.setPending_clock (x : List Instr) : (s.setPending x).clock = s.clock := rfl
@[simp] theorem State.setPending_cet (x : List Instr) : (s.setPending x).cet = s.cet := rfl
@[simp] theorem State.setPending_retire (x : List Instr) : (s.setPending x).retire = s.retire := rfl
@[simp] theorem State.setPending_uel (x : List Instr) : (s.setPending x).uel = s.uel := rfl
@[simp] theorem State.setPending_queues (x : List Instr) : (s.setPending x).queues = s.queues := rfl
@[simp] theorem State.setPending_intake (x : List Instr) : (s.setPending x).intake = s.intake := rfl
@[simp] theorem State.setPending_classifier (x : List Instr) : (s.setPending x).classifier = s.classifier := rfl
@[simp] theorem State.setPending_links (x : List Instr) : (s.setPending x).links = s.links := rfl
@[simp] theorem State.setPending_txs (x : List Instr) : (s.setPending x).txs = s.txs := rfl
@[simp] theorem State.setPending_batch (x : List Instr) : (s.setPending x).batch = s.batch := rfl
@[simp] theorem State.setPending_scrubs (x : List Instr) : (s.setPending x).scrubs = s.scrubs := rfl
@[simp] theorem State.setPending_verify (x : List Instr) : (s.setPending x).verify = s.verify := rfl
@[simp] theorem State.setPending_engine (x : List Instr) : (s.setPending x).engine = s.engine := rfl
@[simp] theorem State.setPending_sysMail (x : List Instr) : (s.setPending x).sysMail = s.sysMail := rfl
@[simp] theorem State.setPending_svcMail (x : List Instr) : (s.setPending x).svcMail = s.svcMail := rfl
@[simp] theorem State.setPending_events (x : List Instr) : (s.setPending x).events = s.events := rfl
@[simp] theorem State.setPending_portData (x : List Instr) : (s.setPending x).portData = s.portData := rfl
@[simp] theorem State.setPending_pending (x : List Instr) : (s.setPending x).pending = x := rfl

@[simp] theorem State.modLink_rst (ch : Chan) (f : Link → Link) : (s.modLink ch f).rst = s.rst := rfl
@[simp] theorem State.modLink_clock (ch : Chan) (f : Link → Link) : (s.modLink ch f).clock = s.clock := rfl
@[simp] theorem State.modLink_cet (ch : Chan) (f : Link → Link) : (s.modLink ch f).cet = s.cet := rfl
@[simp] theorem State.modLink_retire (ch : Chan) (f : Link → Link) : (s.modLink ch f).retire = s.retire := rfl
@[simp] theorem State.modLink_uel (ch : Chan) (f : Link → Link) : (s.modLink ch f).uel = s.uel := rfl
@[simp] theorem State.modLink_queues (ch : Chan) (f : Link → Link) : (s.modLink ch f).queues = s.queues := rfl
@[simp] theorem State.modLink_intake (ch : Chan) (f : Link → Link) : (s.modLink ch f).intake = s.intake := rfl
@[simp] theorem State.modLink_classifier (ch : Chan) (f : Link → Link) : (s.modLink ch f).classifier = s.classifier := rfl
@[simp] theorem State.modLink_txs (ch : Chan) (f : Link → Link) : (s.modLink ch f).txs = s.txs := rfl
@[simp] theorem State.modLink_batch (ch : Chan) (f : Link → Link) : (s.modLink ch f).batch = s.batch := rfl
@[simp] theorem State.modLink_scrubs (ch : Chan) (f : Link → Link) : (s.modLink ch f).scrubs = s.scrubs := rfl
@[simp] theorem State.modLink_verify (ch : Chan) (f : Link → Link) : (s.modLink ch f).verify = s.verify := rfl
@[simp] theorem State.modLink_engine (ch : Chan) (f : Link → Link) : (s.modLink ch f).engine = s.engine := rfl
@[simp] theorem State.modLink_sysMail (ch : Chan) (f : Link → Link) : (s.modLink ch f).sysMail = s.sysMail := rfl
@[simp] theorem State.modLink_svcMail (ch : Chan) (f : Link → Link) : (s.modLink ch f).svcMail = s.svcMail := rfl
@[simp] theorem State.modLink_events (ch : Chan) (f : Link → Link) : (s.modLink ch f).events = s.events := rfl
@[simp] theorem State.modLink_portData (ch : Chan) (f : Link → Link) : (s.modLink ch f).portData = s.portData := rfl
@[simp] theorem State.modLink_pending (ch : Chan) (f : Link → Link) : (s.modLink ch f).pending = s.pending := rfl

@[simp] theorem State.modTx_rst (ch : Chan) (f : Transmitter → Transmitter) : (s.modTx ch f).rst = s.rst := rfl
@[simp] theorem State.modTx_clock (ch : Chan) (f : Transmitter → Transmitter) : (s.modTx ch f).clock = s.clock := rfl
@[simp] theorem State.modTx_cet (ch : Chan) (f : Transmitter → Transmitter) : (s.modTx ch f).cet = s.cet := rfl
@[simp] theorem State.modTx_retire (ch : Chan) (f : Transmitter → Transmitter) : (s.modTx ch f).retire = s.retire := rfl
@[simp] theorem State.modTx_uel (ch : Chan) (f : Transmitter → Transmitter) : (s.modTx ch f).uel = s.uel := rfl
@[simp] theorem State.modTx_queues (ch : Chan) (f : Transmitter → Transmitter) : (s.modTx ch f).queues = s.queues := rfl
@[simp] theorem State.modTx_intake (ch : Chan) (f : Transmitter → Transmitter) : (s.modTx ch f).intake = s.intake := rfl
@[simp] theorem State.modTx_classifier (ch : Chan) (f : Transmitter → Transmitter) : (s.modTx ch f).classifier = s.classifier := rfl
@[simp] theorem State.modTx_links (ch : Chan) (f : Transmitter → Transmitter) : (s.modTx ch f).links = s.links := rfl
@[simp] theorem State.modTx_batch (ch : Chan) (f : Transmitter → Transmitter) : (s.modTx ch f).batch = s.batch := rfl
@[simp] theorem State.modTx_scrubs (ch : Chan) (f : Transmitter → Transmitter) : (s.modTx ch f).scrubs = s.scrubs := rfl
@[simp] theorem State.modTx_verify (ch : Chan) (f : Transmitter → Transmitter) : (s.modTx ch f).verify = s.verify := rfl
@[simp] theorem State.modTx_engine (ch : Chan) (f : Transmitter → Transmitter) : (s.modTx ch f).engine = s.engine := rfl
@[simp] theorem State.modTx_sysMail (ch : Chan) (f : Transmitter → Transmitter) : (s.modTx ch f).sysMail = s.sysMail := rfl
@[simp] theorem State.modTx_svcMail (ch : Chan) (f : Transmitter → Transmitter) : (s.modTx ch f).svcMail = s.svcMail := rfl
@[simp] theorem State.modTx_events (ch : Chan) (f : Transmitter → Transmitter) : (s.modTx ch f).events = s.events := rfl
@[simp] theorem State.modTx_portData (ch : Chan) (f : Transmitter → Transmitter) : (s.modTx ch f).portData = s.portData := rfl
@[simp] theorem State.modTx_pending (ch : Chan) (f : Transmitter → Transmitter) : (s.modTx ch f).pending = s.pending := rfl

@[simp] theorem State.modScrub_rst (ch : Chan) (f : Scrub → Scrub) : (s.modScrub ch f).rst = s.rst := rfl
@[simp] theorem State.modScrub_clock (ch : Chan) (f : Scrub → Scrub) : (s.modScrub ch f).clock = s.clock := rfl
@[simp] theorem State.modScrub_cet (ch : Chan) (f : Scrub → Scrub) : (s.modScrub ch f).cet = s.cet := rfl
@[simp] theorem State.modScrub_retire (ch : Chan) (f : Scrub → Scrub) : (s.modScrub ch f).retire = s.retire := rfl
@[simp] theorem State.modScrub_uel (ch : Chan) (f : Scrub → Scrub) : (s.modScrub ch f).uel = s.uel := rfl
@[simp] theorem State.modScrub_queues (ch : Chan) (f : Scrub → Scrub) : (s.modScrub ch f).queues = s.queues := rfl
@[simp] theorem State.modScrub_intake (ch : Chan) (f : Scrub → Scrub) : (s.modScrub ch f).intake = s.intake := rfl
@[simp] theorem State.modScrub_classifier (ch : Chan) (f : Scrub → Scrub) : (s.modScrub ch f).classifier = s.classifier := rfl
@[simp] theorem State.modScrub_links (ch : Chan) (f : Scrub → Scrub) : (s.modScrub ch f).links = s.links := rfl
@[simp] theorem State.modScrub_txs (ch : Chan) (f : Scrub → Scrub) : (s.modScrub ch f).txs = s.txs := rfl
@[simp] theorem State.modScrub_batch (ch : Chan) (f : Scrub → Scrub) : (s.modScrub ch f).batch = s.batch := rfl
@[simp] theorem State.modScrub_verify (ch : Chan) (f : Scrub → Scrub) : (s.modScrub ch f).verify = s.verify := rfl
@[simp] theorem State.modScrub_engine (ch : Chan) (f : Scrub → Scrub) : (s.modScrub ch f).engine = s.engine := rfl
@[simp] theorem State.modScrub_sysMail (ch : Chan) (f : Scrub → Scrub) : (s.modScrub ch f).sysMail = s.sysMail := rfl
@[simp] theorem State.modScrub_svcMail (ch : Chan) (f : Scrub → Scrub) : (s.modScrub ch f).svcMail = s.svcMail := rfl
@[simp] theorem State.modScrub_events (ch : Chan) (f : Scrub → Scrub) : (s.modScrub ch f).events = s.events := rfl
@[simp] theorem State.modScrub_portData (ch : Chan) (f : Scrub → Scrub) : (s.modScrub ch f).portData = s.portData := rfl
@[simp] theorem State.modScrub_pending (ch : Chan) (f : Scrub → Scrub) : (s.modScrub ch f).pending = s.pending := rfl

@[simp] theorem State.modClassifier_rst (ch : Chan) (f : ClassifierCounters → ClassifierCounters) : (s.modClassifier ch f).rst = s.rst := rfl
@[simp] theorem State.modClassifier_clock (ch : Chan) (f : ClassifierCounters → ClassifierCounters) : (s.modClassifier ch f).clock = s.clock := rfl
@[simp] theorem State.modClassifier_cet (ch : Chan) (f : ClassifierCounters → ClassifierCounters) : (s.modClassifier ch f).cet = s.cet := rfl
@[simp] theorem State.modClassifier_retire (ch : Chan) (f : ClassifierCounters → ClassifierCounters) : (s.modClassifier ch f).retire = s.retire := rfl
@[simp] theorem State.modClassifier_uel (ch : Chan) (f : ClassifierCounters → ClassifierCounters) : (s.modClassifier ch f).uel = s.uel := rfl
@[simp] theorem State.modClassifier_queues (ch : Chan) (f : ClassifierCounters → ClassifierCounters) : (s.modClassifier ch f).queues = s.queues := rfl
@[simp] theorem State.modClassifier_intake (ch : Chan) (f : ClassifierCounters → ClassifierCounters) : (s.modClassifier ch f).intake = s.intake := rfl
@[simp] theorem State.modClassifier_links (ch : Chan) (f : ClassifierCounters → ClassifierCounters) : (s.modClassifier ch f).links = s.links := rfl
@[simp] theorem State.modClassifier_txs (ch : Chan) (f : ClassifierCounters → ClassifierCounters) : (s.modClassifier ch f).txs = s.txs := rfl
@[simp] theorem State.modClassifier_batch (ch : Chan) (f : ClassifierCounters → ClassifierCounters) : (s.modClassifier ch f).batch = s.batch := rfl
@[simp] theorem State.modClassifier_scrubs (ch : Chan) (f : ClassifierCounters → ClassifierCounters) : (s.modClassifier ch f).scrubs = s.scrubs := rfl
@[simp] theorem State.modClassifier_verify (ch : Chan) (f : ClassifierCounters → ClassifierCounters) : (s.modClassifier ch f).verify = s.verify := rfl
@[simp] theorem State.modClassifier_engine (ch : Chan) (f : ClassifierCounters → ClassifierCounters) : (s.modClassifier ch f).engine = s.engine := rfl
@[simp] theorem State.modClassifier_sysMail (ch : Chan) (f : ClassifierCounters → ClassifierCounters) : (s.modClassifier ch f).sysMail = s.sysMail := rfl
@[simp] theorem State.modClassifier_svcMail (ch : Chan) (f : ClassifierCounters → ClassifierCounters) : (s.modClassifier ch f).svcMail = s.svcMail := rfl
@[simp] theorem State.modClassifier_events (ch : Chan) (f : ClassifierCounters → ClassifierCounters) : (s.modClassifier ch f).events = s.events := rfl
@[simp] theorem State.modClassifier_portData (ch : Chan) (f : ClassifierCounters → ClassifierCounters) : (s.modClassifier ch f).portData = s.portData := rfl
@[simp] theorem State.modClassifier_pending (ch : Chan) (f : ClassifierCounters → ClassifierCounters) : (s.modClassifier ch f).pending = s.pending := rfl

@[simp] theorem State.setEntry_rst (i : CetIdx) (e : Option CetEntry) : (s.setEntry i e).rst = s.rst := rfl
@[simp] theorem State.setEntry_clock (i : CetIdx) (e : Option CetEntry) : (s.setEntry i e).clock = s.clock := rfl
@[simp] theorem State.setEntry_retire (i : CetIdx) (e : Option CetEntry) : (s.setEntry i e).retire = s.retire := rfl
@[simp] theorem State.setEntry_uel (i : CetIdx) (e : Option CetEntry) : (s.setEntry i e).uel = s.uel := rfl
@[simp] theorem State.setEntry_queues (i : CetIdx) (e : Option CetEntry) : (s.setEntry i e).queues = s.queues := rfl
@[simp] theorem State.setEntry_intake (i : CetIdx) (e : Option CetEntry) : (s.setEntry i e).intake = s.intake := rfl
@[simp] theorem State.setEntry_classifier (i : CetIdx) (e : Option CetEntry) : (s.setEntry i e).classifier = s.classifier := rfl
@[simp] theorem State.setEntry_links (i : CetIdx) (e : Option CetEntry) : (s.setEntry i e).links = s.links := rfl
@[simp] theorem State.setEntry_txs (i : CetIdx) (e : Option CetEntry) : (s.setEntry i e).txs = s.txs := rfl
@[simp] theorem State.setEntry_batch (i : CetIdx) (e : Option CetEntry) : (s.setEntry i e).batch = s.batch := rfl
@[simp] theorem State.setEntry_scrubs (i : CetIdx) (e : Option CetEntry) : (s.setEntry i e).scrubs = s.scrubs := rfl
@[simp] theorem State.setEntry_verify (i : CetIdx) (e : Option CetEntry) : (s.setEntry i e).verify = s.verify := rfl
@[simp] theorem State.setEntry_engine (i : CetIdx) (e : Option CetEntry) : (s.setEntry i e).engine = s.engine := rfl
@[simp] theorem State.setEntry_sysMail (i : CetIdx) (e : Option CetEntry) : (s.setEntry i e).sysMail = s.sysMail := rfl
@[simp] theorem State.setEntry_svcMail (i : CetIdx) (e : Option CetEntry) : (s.setEntry i e).svcMail = s.svcMail := rfl
@[simp] theorem State.setEntry_events (i : CetIdx) (e : Option CetEntry) : (s.setEntry i e).events = s.events := rfl
@[simp] theorem State.setEntry_portData (i : CetIdx) (e : Option CetEntry) : (s.setEntry i e).portData = s.portData := rfl
@[simp] theorem State.setEntry_pending (i : CetIdx) (e : Option CetEntry) : (s.setEntry i e).pending = s.pending := rfl

@[simp] theorem State.modEntry_rst (i : CetIdx) (f : CetEntry → CetEntry) : (s.modEntry i f).rst = s.rst := rfl
@[simp] theorem State.modEntry_clock (i : CetIdx) (f : CetEntry → CetEntry) : (s.modEntry i f).clock = s.clock := rfl
@[simp] theorem State.modEntry_retire (i : CetIdx) (f : CetEntry → CetEntry) : (s.modEntry i f).retire = s.retire := rfl
@[simp] theorem State.modEntry_uel (i : CetIdx) (f : CetEntry → CetEntry) : (s.modEntry i f).uel = s.uel := rfl
@[simp] theorem State.modEntry_queues (i : CetIdx) (f : CetEntry → CetEntry) : (s.modEntry i f).queues = s.queues := rfl
@[simp] theorem State.modEntry_intake (i : CetIdx) (f : CetEntry → CetEntry) : (s.modEntry i f).intake = s.intake := rfl
@[simp] theorem State.modEntry_classifier (i : CetIdx) (f : CetEntry → CetEntry) : (s.modEntry i f).classifier = s.classifier := rfl
@[simp] theorem State.modEntry_links (i : CetIdx) (f : CetEntry → CetEntry) : (s.modEntry i f).links = s.links := rfl
@[simp] theorem State.modEntry_txs (i : CetIdx) (f : CetEntry → CetEntry) : (s.modEntry i f).txs = s.txs := rfl
@[simp] theorem State.modEntry_batch (i : CetIdx) (f : CetEntry → CetEntry) : (s.modEntry i f).batch = s.batch := rfl
@[simp] theorem State.modEntry_scrubs (i : CetIdx) (f : CetEntry → CetEntry) : (s.modEntry i f).scrubs = s.scrubs := rfl
@[simp] theorem State.modEntry_verify (i : CetIdx) (f : CetEntry → CetEntry) : (s.modEntry i f).verify = s.verify := rfl
@[simp] theorem State.modEntry_engine (i : CetIdx) (f : CetEntry → CetEntry) : (s.modEntry i f).engine = s.engine := rfl
@[simp] theorem State.modEntry_sysMail (i : CetIdx) (f : CetEntry → CetEntry) : (s.modEntry i f).sysMail = s.sysMail := rfl
@[simp] theorem State.modEntry_svcMail (i : CetIdx) (f : CetEntry → CetEntry) : (s.modEntry i f).svcMail = s.svcMail := rfl
@[simp] theorem State.modEntry_events (i : CetIdx) (f : CetEntry → CetEntry) : (s.modEntry i f).events = s.events := rfl
@[simp] theorem State.modEntry_portData (i : CetIdx) (f : CetEntry → CetEntry) : (s.modEntry i f).portData = s.portData := rfl
@[simp] theorem State.modEntry_pending (i : CetIdx) (f : CetEntry → CetEntry) : (s.modEntry i f).pending = s.pending := rfl

@[simp] theorem State.setStatus_rst (i : CetIdx) (v : VerifyStatus) : (s.setStatus i v).rst = s.rst := rfl
@[simp] theorem State.setStatus_clock (i : CetIdx) (v : VerifyStatus) : (s.setStatus i v).clock = s.clock := rfl
@[simp] theorem State.setStatus_retire (i : CetIdx) (v : VerifyStatus) : (s.setStatus i v).retire = s.retire := rfl
@[simp] theorem State.setStatus_uel (i : CetIdx) (v : VerifyStatus) : (s.setStatus i v).uel = s.uel := rfl
@[simp] theorem State.setStatus_queues (i : CetIdx) (v : VerifyStatus) : (s.setStatus i v).queues = s.queues := rfl
@[simp] theorem State.setStatus_intake (i : CetIdx) (v : VerifyStatus) : (s.setStatus i v).intake = s.intake := rfl
@[simp] theorem State.setStatus_classifier (i : CetIdx) (v : VerifyStatus) : (s.setStatus i v).classifier = s.classifier := rfl
@[simp] theorem State.setStatus_links (i : CetIdx) (v : VerifyStatus) : (s.setStatus i v).links = s.links := rfl
@[simp] theorem State.setStatus_txs (i : CetIdx) (v : VerifyStatus) : (s.setStatus i v).txs = s.txs := rfl
@[simp] theorem State.setStatus_batch (i : CetIdx) (v : VerifyStatus) : (s.setStatus i v).batch = s.batch := rfl
@[simp] theorem State.setStatus_scrubs (i : CetIdx) (v : VerifyStatus) : (s.setStatus i v).scrubs = s.scrubs := rfl
@[simp] theorem State.setStatus_verify (i : CetIdx) (v : VerifyStatus) : (s.setStatus i v).verify = s.verify := rfl
@[simp] theorem State.setStatus_engine (i : CetIdx) (v : VerifyStatus) : (s.setStatus i v).engine = s.engine := rfl
@[simp] theorem State.setStatus_sysMail (i : CetIdx) (v : VerifyStatus) : (s.setStatus i v).sysMail = s.sysMail := rfl
@[simp] theorem State.setStatus_svcMail (i : CetIdx) (v : VerifyStatus) : (s.setStatus i v).svcMail = s.svcMail := rfl
@[simp] theorem State.setStatus_events (i : CetIdx) (v : VerifyStatus) : (s.setStatus i v).events = s.events := rfl
@[simp] theorem State.setStatus_portData (i : CetIdx) (v : VerifyStatus) : (s.setStatus i v).portData = s.portData := rfl
@[simp] theorem State.setStatus_pending (i : CetIdx) (v : VerifyStatus) : (s.setStatus i v).pending = s.pending := rfl

@[simp] theorem State.bumpGeneration_rst : (s.bumpGeneration).rst = s.rst := rfl
@[simp] theorem State.bumpGeneration_clock : (s.bumpGeneration).clock = s.clock := rfl
@[simp] theorem State.bumpGeneration_retire : (s.bumpGeneration).retire = s.retire := rfl
@[simp] theorem State.bumpGeneration_uel : (s.bumpGeneration).uel = s.uel := rfl
@[simp] theorem State.bumpGeneration_queues : (s.bumpGeneration).queues = s.queues := rfl
@[simp] theorem State.bumpGeneration_intake : (s.bumpGeneration).intake = s.intake := rfl
@[simp] theorem State.bumpGeneration_classifier : (s.bumpGeneration).classifier = s.classifier := rfl
@[simp] theorem State.bumpGeneration_links : (s.bumpGeneration).links = s.links := rfl
@[simp] theorem State.bumpGeneration_txs : (s.bumpGeneration).txs = s.txs := rfl
@[simp] theorem State.bumpGeneration_batch : (s.bumpGeneration).batch = s.batch := rfl
@[simp] theorem State.bumpGeneration_scrubs : (s.bumpGeneration).scrubs = s.scrubs := rfl
@[simp] theorem State.bumpGeneration_verify : (s.bumpGeneration).verify = s.verify := rfl
@[simp] theorem State.bumpGeneration_engine : (s.bumpGeneration).engine = s.engine := rfl
@[simp] theorem State.bumpGeneration_sysMail : (s.bumpGeneration).sysMail = s.sysMail := rfl
@[simp] theorem State.bumpGeneration_svcMail : (s.bumpGeneration).svcMail = s.svcMail := rfl
@[simp] theorem State.bumpGeneration_events : (s.bumpGeneration).events = s.events := rfl
@[simp] theorem State.bumpGeneration_portData : (s.bumpGeneration).portData = s.portData := rfl
@[simp] theorem State.bumpGeneration_pending : (s.bumpGeneration).pending = s.pending := rfl

@[simp] theorem State.setFlag_rst (f : EventFlag) : (s.setFlag f).rst = s.rst := rfl
@[simp] theorem State.setFlag_clock (f : EventFlag) : (s.setFlag f).clock = s.clock := rfl
@[simp] theorem State.setFlag_cet (f : EventFlag) : (s.setFlag f).cet = s.cet := rfl
@[simp] theorem State.setFlag_retire (f : EventFlag) : (s.setFlag f).retire = s.retire := rfl
@[simp] theorem State.setFlag_uel (f : EventFlag) : (s.setFlag f).uel = s.uel := rfl
@[simp] theorem State.setFlag_queues (f : EventFlag) : (s.setFlag f).queues = s.queues := rfl
@[simp] theorem State.setFlag_intake (f : EventFlag) : (s.setFlag f).intake = s.intake := rfl
@[simp] theorem State.setFlag_classifier (f : EventFlag) : (s.setFlag f).classifier = s.classifier := rfl
@[simp] theorem State.setFlag_links (f : EventFlag) : (s.setFlag f).links = s.links := rfl
@[simp] theorem State.setFlag_txs (f : EventFlag) : (s.setFlag f).txs = s.txs := rfl
@[simp] theorem State.setFlag_batch (f : EventFlag) : (s.setFlag f).batch = s.batch := rfl
@[simp] theorem State.setFlag_scrubs (f : EventFlag) : (s.setFlag f).scrubs = s.scrubs := rfl
@[simp] theorem State.setFlag_verify (f : EventFlag) : (s.setFlag f).verify = s.verify := rfl
@[simp] theorem State.setFlag_engine (f : EventFlag) : (s.setFlag f).engine = s.engine := rfl
@[simp] theorem State.setFlag_sysMail (f : EventFlag) : (s.setFlag f).sysMail = s.sysMail := rfl
@[simp] theorem State.setFlag_svcMail (f : EventFlag) : (s.setFlag f).svcMail = s.svcMail := rfl
@[simp] theorem State.setFlag_portData (f : EventFlag) : (s.setFlag f).portData = s.portData := rfl
@[simp] theorem State.setFlag_pending (f : EventFlag) : (s.setFlag f).pending = s.pending := rfl

@[simp] theorem State.clearFlags_rst (w : Word) : (s.clearFlags w).rst = s.rst := rfl
@[simp] theorem State.clearFlags_clock (w : Word) : (s.clearFlags w).clock = s.clock := rfl
@[simp] theorem State.clearFlags_cet (w : Word) : (s.clearFlags w).cet = s.cet := rfl
@[simp] theorem State.clearFlags_retire (w : Word) : (s.clearFlags w).retire = s.retire := rfl
@[simp] theorem State.clearFlags_uel (w : Word) : (s.clearFlags w).uel = s.uel := rfl
@[simp] theorem State.clearFlags_queues (w : Word) : (s.clearFlags w).queues = s.queues := rfl
@[simp] theorem State.clearFlags_intake (w : Word) : (s.clearFlags w).intake = s.intake := rfl
@[simp] theorem State.clearFlags_classifier (w : Word) : (s.clearFlags w).classifier = s.classifier := rfl
@[simp] theorem State.clearFlags_links (w : Word) : (s.clearFlags w).links = s.links := rfl
@[simp] theorem State.clearFlags_txs (w : Word) : (s.clearFlags w).txs = s.txs := rfl
@[simp] theorem State.clearFlags_batch (w : Word) : (s.clearFlags w).batch = s.batch := rfl
@[simp] theorem State.clearFlags_scrubs (w : Word) : (s.clearFlags w).scrubs = s.scrubs := rfl
@[simp] theorem State.clearFlags_verify (w : Word) : (s.clearFlags w).verify = s.verify := rfl
@[simp] theorem State.clearFlags_engine (w : Word) : (s.clearFlags w).engine = s.engine := rfl
@[simp] theorem State.clearFlags_sysMail (w : Word) : (s.clearFlags w).sysMail = s.sysMail := rfl
@[simp] theorem State.clearFlags_svcMail (w : Word) : (s.clearFlags w).svcMail = s.svcMail := rfl
@[simp] theorem State.clearFlags_portData (w : Word) : (s.clearFlags w).portData = s.portData := rfl
@[simp] theorem State.clearFlags_pending (w : Word) : (s.clearFlags w).pending = s.pending := rfl

@[simp] theorem State.clearLatch_rst : (s.clearLatch).rst = s.rst := rfl
@[simp] theorem State.clearLatch_clock : (s.clearLatch).clock = s.clock := rfl
@[simp] theorem State.clearLatch_cet : (s.clearLatch).cet = s.cet := rfl
@[simp] theorem State.clearLatch_retire : (s.clearLatch).retire = s.retire := rfl
@[simp] theorem State.clearLatch_uel : (s.clearLatch).uel = s.uel := rfl
@[simp] theorem State.clearLatch_queues : (s.clearLatch).queues = s.queues := rfl
@[simp] theorem State.clearLatch_intake : (s.clearLatch).intake = s.intake := rfl
@[simp] theorem State.clearLatch_classifier : (s.clearLatch).classifier = s.classifier := rfl
@[simp] theorem State.clearLatch_links : (s.clearLatch).links = s.links := rfl
@[simp] theorem State.clearLatch_txs : (s.clearLatch).txs = s.txs := rfl
@[simp] theorem State.clearLatch_batch : (s.clearLatch).batch = s.batch := rfl
@[simp] theorem State.clearLatch_scrubs : (s.clearLatch).scrubs = s.scrubs := rfl
@[simp] theorem State.clearLatch_verify : (s.clearLatch).verify = s.verify := rfl
@[simp] theorem State.clearLatch_engine : (s.clearLatch).engine = s.engine := rfl
@[simp] theorem State.clearLatch_sysMail : (s.clearLatch).sysMail = s.sysMail := rfl
@[simp] theorem State.clearLatch_svcMail : (s.clearLatch).svcMail = s.svcMail := rfl
@[simp] theorem State.clearLatch_portData : (s.clearLatch).portData = s.portData := rfl
@[simp] theorem State.clearLatch_pending : (s.clearLatch).pending = s.pending := rfl

@[simp] theorem State.setFatal_rst (c : FatalCause) : (s.setFatal c).rst = s.rst := by cases c <;> rfl
@[simp] theorem State.setFatal_clock (c : FatalCause) : (s.setFatal c).clock = s.clock := by cases c <;> rfl
@[simp] theorem State.setFatal_cet (c : FatalCause) : (s.setFatal c).cet = s.cet := by cases c <;> rfl
@[simp] theorem State.setFatal_retire (c : FatalCause) : (s.setFatal c).retire = s.retire := by cases c <;> rfl
@[simp] theorem State.setFatal_uel (c : FatalCause) : (s.setFatal c).uel = s.uel := by cases c <;> rfl
@[simp] theorem State.setFatal_queues (c : FatalCause) : (s.setFatal c).queues = s.queues := by cases c <;> rfl
@[simp] theorem State.setFatal_intake (c : FatalCause) : (s.setFatal c).intake = s.intake := by cases c <;> rfl
@[simp] theorem State.setFatal_classifier (c : FatalCause) : (s.setFatal c).classifier = s.classifier := by cases c <;> rfl
@[simp] theorem State.setFatal_links (c : FatalCause) : (s.setFatal c).links = s.links := by cases c <;> rfl
@[simp] theorem State.setFatal_txs (c : FatalCause) : (s.setFatal c).txs = s.txs := by cases c <;> rfl
@[simp] theorem State.setFatal_batch (c : FatalCause) : (s.setFatal c).batch = s.batch := by cases c <;> rfl
@[simp] theorem State.setFatal_scrubs (c : FatalCause) : (s.setFatal c).scrubs = s.scrubs := by cases c <;> rfl
@[simp] theorem State.setFatal_verify (c : FatalCause) : (s.setFatal c).verify = s.verify := by cases c <;> rfl
@[simp] theorem State.setFatal_engine (c : FatalCause) : (s.setFatal c).engine = s.engine := by cases c <;> rfl
@[simp] theorem State.setFatal_sysMail (c : FatalCause) : (s.setFatal c).sysMail = s.sysMail := by cases c <;> rfl
@[simp] theorem State.setFatal_svcMail (c : FatalCause) : (s.setFatal c).svcMail = s.svcMail := by cases c <;> rfl
@[simp] theorem State.setFatal_portData (c : FatalCause) : (s.setFatal c).portData = s.portData := by cases c <;> rfl
@[simp] theorem State.setFatal_pending (c : FatalCause) : (s.setFatal c).pending = s.pending := by cases c <;> rfl

@[simp] theorem State.setLineMask_rst (p : Port) (v : Word) : (s.setLineMask p v).rst = s.rst := by cases p <;> rfl
@[simp] theorem State.setLineMask_clock (p : Port) (v : Word) : (s.setLineMask p v).clock = s.clock := by cases p <;> rfl
@[simp] theorem State.setLineMask_cet (p : Port) (v : Word) : (s.setLineMask p v).cet = s.cet := by cases p <;> rfl
@[simp] theorem State.setLineMask_retire (p : Port) (v : Word) : (s.setLineMask p v).retire = s.retire := by cases p <;> rfl
@[simp] theorem State.setLineMask_uel (p : Port) (v : Word) : (s.setLineMask p v).uel = s.uel := by cases p <;> rfl
@[simp] theorem State.setLineMask_queues (p : Port) (v : Word) : (s.setLineMask p v).queues = s.queues := by cases p <;> rfl
@[simp] theorem State.setLineMask_intake (p : Port) (v : Word) : (s.setLineMask p v).intake = s.intake := by cases p <;> rfl
@[simp] theorem State.setLineMask_classifier (p : Port) (v : Word) : (s.setLineMask p v).classifier = s.classifier := by cases p <;> rfl
@[simp] theorem State.setLineMask_links (p : Port) (v : Word) : (s.setLineMask p v).links = s.links := by cases p <;> rfl
@[simp] theorem State.setLineMask_txs (p : Port) (v : Word) : (s.setLineMask p v).txs = s.txs := by cases p <;> rfl
@[simp] theorem State.setLineMask_batch (p : Port) (v : Word) : (s.setLineMask p v).batch = s.batch := by cases p <;> rfl
@[simp] theorem State.setLineMask_scrubs (p : Port) (v : Word) : (s.setLineMask p v).scrubs = s.scrubs := by cases p <;> rfl
@[simp] theorem State.setLineMask_verify (p : Port) (v : Word) : (s.setLineMask p v).verify = s.verify := by cases p <;> rfl
@[simp] theorem State.setLineMask_engine (p : Port) (v : Word) : (s.setLineMask p v).engine = s.engine := by cases p <;> rfl
@[simp] theorem State.setLineMask_sysMail (p : Port) (v : Word) : (s.setLineMask p v).sysMail = s.sysMail := by cases p <;> rfl
@[simp] theorem State.setLineMask_svcMail (p : Port) (v : Word) : (s.setLineMask p v).svcMail = s.svcMail := by cases p <;> rfl
@[simp] theorem State.setLineMask_portData (p : Port) (v : Word) : (s.setLineMask p v).portData = s.portData := by cases p <;> rfl
@[simp] theorem State.setLineMask_pending (p : Port) (v : Word) : (s.setLineMask p v).pending = s.pending := by cases p <;> rfl

@[simp] theorem State.setMail_rst (p : Port) (m : Mailbox) : (s.setMail p m).rst = s.rst := by cases p <;> rfl
@[simp] theorem State.setMail_clock (p : Port) (m : Mailbox) : (s.setMail p m).clock = s.clock := by cases p <;> rfl
@[simp] theorem State.setMail_cet (p : Port) (m : Mailbox) : (s.setMail p m).cet = s.cet := by cases p <;> rfl
@[simp] theorem State.setMail_retire (p : Port) (m : Mailbox) : (s.setMail p m).retire = s.retire := by cases p <;> rfl
@[simp] theorem State.setMail_uel (p : Port) (m : Mailbox) : (s.setMail p m).uel = s.uel := by cases p <;> rfl
@[simp] theorem State.setMail_queues (p : Port) (m : Mailbox) : (s.setMail p m).queues = s.queues := by cases p <;> rfl
@[simp] theorem State.setMail_intake (p : Port) (m : Mailbox) : (s.setMail p m).intake = s.intake := by cases p <;> rfl
@[simp] theorem State.setMail_classifier (p : Port) (m : Mailbox) : (s.setMail p m).classifier = s.classifier := by cases p <;> rfl
@[simp] theorem State.setMail_links (p : Port) (m : Mailbox) : (s.setMail p m).links = s.links := by cases p <;> rfl
@[simp] theorem State.setMail_txs (p : Port) (m : Mailbox) : (s.setMail p m).txs = s.txs := by cases p <;> rfl
@[simp] theorem State.setMail_batch (p : Port) (m : Mailbox) : (s.setMail p m).batch = s.batch := by cases p <;> rfl
@[simp] theorem State.setMail_scrubs (p : Port) (m : Mailbox) : (s.setMail p m).scrubs = s.scrubs := by cases p <;> rfl
@[simp] theorem State.setMail_verify (p : Port) (m : Mailbox) : (s.setMail p m).verify = s.verify := by cases p <;> rfl
@[simp] theorem State.setMail_engine (p : Port) (m : Mailbox) : (s.setMail p m).engine = s.engine := by cases p <;> rfl
@[simp] theorem State.setMail_events (p : Port) (m : Mailbox) : (s.setMail p m).events = s.events := by cases p <;> rfl
@[simp] theorem State.setMail_portData (p : Port) (m : Mailbox) : (s.setMail p m).portData = s.portData := by cases p <;> rfl
@[simp] theorem State.setMail_pending (p : Port) (m : Mailbox) : (s.setMail p m).pending = s.pending := by cases p <;> rfl

end Sys2Proof.Machine
end

