-- ==== Sys2Proof/Laws/Table.lean ====
section
/-! SUPPORT. Reading a table after each update of it. -/

namespace Sys2Proof

variable {α β : Type} {n : Nat}

theorem Table.ext_get {t u : Table α n} (h : ∀ i, t.get i = u.get i) : t = u := by
  obtain ⟨tc, ht⟩ := t
  obtain ⟨uc, hu⟩ := u
  have : tc = uc := by
    apply List.ext_getElem (by omega)
    intro i h1 h2
    exact h ⟨i, by omega⟩
  subst this
  rfl

@[simp] theorem Table.get_set_self (t : Table α n) (i : Fin n) (x : α) : (t.set i x).get i = x := by
  simp [Table.get, Table.set]

@[simp] theorem Table.get_set_ne (t : Table α n) {i j : Fin n} (x : α) (h : j ≠ i) : (t.set i x).get j = t.get j := by
  have : i.val ≠ j.val := fun e => h (Fin.ext e.symm)
  simp [Table.get, Table.set, this]

theorem Table.get_set (t : Table α n) (i j : Fin n) (x : α) : (t.set i x).get j = if j = i then x else t.get j := by
  by_cases h : j = i
  · subst h; simp
  · simp [h]

@[simp] theorem Table.set_get_self (t : Table α n) (i : Fin n) : t.set i (t.get i) = t := by
  apply Table.ext_get
  intro j
  by_cases h : j = i
  · subst h; simp
  · simp [h]

@[simp] theorem Table.get_modify_self (t : Table α n) (i : Fin n) (f : α → α) : (t.modify i f).get i = f (t.get i) := by
  simp [Table.modify]

@[simp] theorem Table.get_modify_ne (t : Table α n) {i j : Fin n} (f : α → α) (h : j ≠ i) : (t.modify i f).get j = t.get j := by
  simp [Table.modify, h]

theorem Table.get_modify (t : Table α n) (i j : Fin n) (f : α → α) :
    (t.modify i f).get j = if j = i then f (t.get i) else t.get j := by
  by_cases h : j = i
  · subst h; simp
  · simp [h]

@[simp] theorem Table.get_map (t : Table α n) (f : α → β) (i : Fin n) : (t.map f).get i = f (t.get i) := by
  simp [Table.get, Table.map]

@[simp] theorem Table.get_fill (x : α) (i : Fin n) : (Table.fill n x).get i = x := by
  simp [Table.get, Table.fill]

theorem Table.get_mem_cells (t : Table α n) (i : Fin n) : t.get i ∈ t.cells := List.getElem_mem _

theorem Table.mem_cells_iff (t : Table α n) (x : α) : x ∈ t.cells ↔ ∃ i, t.get i = x := by
  constructor
  · intro h
    obtain ⟨k, hk, rfl⟩ := List.getElem_of_mem h
    exact ⟨⟨k, by rw [← t.size]; exact hk⟩, rfl⟩
  · rintro ⟨i, rfl⟩
    exact t.get_mem_cells i

/-- A search that succeeds names a cell that satisfies the test, and no lower cell does. -/
theorem Table.find_eq_some {t : Table α n} {p : α → Bool} {i : Fin n} (h : t.find p = some i) :
    p (t.get i) = true ∧ ∀ j, j < i → p (t.get j) = false := by
  rw [Table.find, List.find?_eq_some_iff_getElem] at h
  obtain ⟨hp, k, hk, he, hl⟩ := h
  refine ⟨hp, fun j hj => ?_⟩
  simp only [List.getElem_finRange] at he
  have hik : i.val = k := by rw [← he]; rfl
  have := hl j.val (by have := Fin.lt_def.mp hj; omega)
  simpa using this

/-- A search fails exactly when no cell satisfies the test. -/
theorem Table.find_eq_none {t : Table α n} {p : α → Bool} : t.find p = none ↔ ∀ i, p (t.get i) = false := by
  simp [Table.find]

/-- A search answers an index exactly when the index is the lowest that satisfies the test. -/
theorem Table.find_eq_some_iff {t : Table α n} {p : α → Bool} {i : Fin n} :
    t.find p = some i ↔ p (t.get i) = true ∧ ∀ j, j < i → p (t.get j) = false := by
  refine ⟨Table.find_eq_some, fun ⟨hp, hl⟩ => ?_⟩
  cases h : t.find p with
  | none => simp [Table.find_eq_none.mp h i] at hp
  | some k =>
    obtain ⟨hk, hkl⟩ := Table.find_eq_some h
    rcases lt_trichotomy i k with hlt | heq | hgt
    · simp [hkl i hlt] at hp
    · rw [heq]
    · simp [hl k hgt] at hk

/-- The count of cells as a sum over the indices. -/
theorem Table.count_eq (t : Table α n) (p : α → Bool) : t.count p = (List.finRange n).countP (fun i => p (t.get i)) := by
  have : t.cells = (List.finRange n).map t.get := by
    apply List.ext_getElem (by simp [t.size])
    intro i h1 h2
    simp [Table.get]
  rw [Table.count, this, List.countP_map]
  rfl

/-- The count after one cell is replaced. -/
theorem Table.count_set (t : Table α n) (p : α → Bool) (i : Fin n) (x : α) :
    (t.set i x).count p + (p (t.get i)).toNat = t.count p + (p x).toNat := by
  have hi : i.val < t.cells.length := by rw [t.size]; exact i.isLt
  have hsplit : t.cells = t.cells.take i.val ++ t.get i :: t.cells.drop (i.val + 1) := by
    simp [Table.get]
  have hset : (t.set i x).cells = t.cells.take i.val ++ x :: t.cells.drop (i.val + 1) := by
    simp [Table.set, List.set_eq_take_append_cons_drop, hi]
  unfold Table.count
  rw [hset]
  conv_rhs => rw [hsplit]
  simp only [List.countP_append, List.countP_cons]
  cases p (t.get i) <;> cases p x <;> simp <;> omega

theorem Table.count_le (t : Table α n) (p : α → Bool) : t.count p ≤ n := by
  rw [Table.count]; exact le_trans List.countP_le_length (le_of_eq t.size)

end Sys2Proof
end

