-- ==== Sys2Proof/Laws/Footprint.lean ====
section
/-! SUPPORT. What the operations on the tables can change: the CET, the retirement list and the verify queue, and flags that they set.
Each operation has one lemma, `<operation>_tables`, that says so. -/

namespace Sys2Proof.Machine

/-- R179: the flags of one event unit are flags of another. -/
def EventUnit.Grows (a b : EventUnit) : Prop := b = { a with flags := b.flags } ∧ a.flags &&& b.flags = a.flags

theorem EventUnit.Grows.refl (a : EventUnit) : a.Grows a := ⟨rfl, by simp⟩

theorem EventUnit.Grows.trans {a b c : EventUnit} (h : a.Grows b) (k : b.Grows c) : a.Grows c := by
  obtain ⟨h1, h2⟩ := h
  obtain ⟨k1, k2⟩ := k
  refine ⟨?_, ?_⟩
  · rw [k1, h1]
  · rw [← h2, BitVec.and_assoc, k2]

/-- Only the CET, the retirement list, the verify queue and new flags differ. -/
structure TablesOnly (s t : State) : Prop where
  rst        : t.rst = s.rst
  clock      : t.clock = s.clock
  uel        : t.uel = s.uel
  queues     : t.queues = s.queues
  intake     : t.intake = s.intake
  classifier : t.classifier = s.classifier
  links      : t.links = s.links
  txs        : t.txs = s.txs
  batch      : t.batch = s.batch
  scrubs     : t.scrubs = s.scrubs
  engine     : t.engine = s.engine
  sysMail    : t.sysMail = s.sysMail
  svcMail    : t.svcMail = s.svcMail
  portData   : t.portData = s.portData
  pending    : t.pending = s.pending
  events     : s.events.Grows t.events
  policy     : t.cet.policy = s.cet.policy
  leakTimer  : t.cet.leakTimer = s.cet.leakTimer
  settings   : t.verify.reads = s.verify.reads ∧ t.verify.persist = s.verify.persist

theorem TablesOnly.refl (s : State) : TablesOnly s s := by
  constructor <;> first | rfl | exact EventUnit.Grows.refl _ | exact ⟨rfl, rfl⟩

theorem TablesOnly.trans {s t u : State} (h : TablesOnly s t) (k : TablesOnly t u) : TablesOnly s u where
  rst        := k.rst.trans h.rst
  clock      := k.clock.trans h.clock
  uel        := k.uel.trans h.uel
  queues     := k.queues.trans h.queues
  intake     := k.intake.trans h.intake
  classifier := k.classifier.trans h.classifier
  links      := k.links.trans h.links
  txs        := k.txs.trans h.txs
  batch      := k.batch.trans h.batch
  scrubs     := k.scrubs.trans h.scrubs
  engine     := k.engine.trans h.engine
  sysMail    := k.sysMail.trans h.sysMail
  svcMail    := k.svcMail.trans h.svcMail
  portData   := k.portData.trans h.portData
  pending    := k.pending.trans h.pending
  events     := h.events.trans k.events
  policy     := k.policy.trans h.policy
  leakTimer  := k.leakTimer.trans h.leakTimer
  settings   := ⟨k.settings.1.trans h.settings.1, k.settings.2.trans h.settings.2⟩

/-- A new CET with the policy and the timer kept. -/
theorem setCet_tables (s : State) (x : Cet) (hp : x.policy = s.cet.policy) (hl : x.leakTimer = s.cet.leakTimer) :
    TablesOnly s (s.setCet x) := by
  constructor <;> first | rfl | exact EventUnit.Grows.refl _ | exact ⟨rfl, rfl⟩ | assumption

theorem setRetire_tables (s : State) (x : RetireList) : TablesOnly s (s.setRetire x) := by
  constructor <;> first | rfl | exact EventUnit.Grows.refl _ | exact ⟨rfl, rfl⟩

/-- A new verify queue with the settings kept. -/
theorem setVerify_tables (s : State) (x : VerifyQueue) (h : x.reads = s.verify.reads ∧ x.persist = s.verify.persist) :
    TablesOnly s (s.setVerify x) := by
  constructor <;> first | rfl | exact EventUnit.Grows.refl _ | assumption

theorem EventUnit.Grows.or (a : EventUnit) (m : BitVec 17) : a.Grows { a with flags := a.flags ||| m } := by
  refine ⟨rfl, ?_⟩
  ext i hi
  simp
  tauto

theorem State.setFlag_tables (s : State) (f : EventFlag) : TablesOnly s (s.setFlag f) := by
  constructor <;> first | rfl | exact ⟨rfl, rfl⟩ | exact EventUnit.Grows.or _ _

theorem State.setEntry_tables (s : State) (i : CetIdx) (e : Option CetEntry) : TablesOnly s (s.setEntry i e) :=
  setCet_tables _ _ rfl rfl

theorem State.modEntry_tables (s : State) (i : CetIdx) (f : CetEntry → CetEntry) : TablesOnly s (s.modEntry i f) :=
  s.setEntry_tables i _

theorem State.setStatus_tables (s : State) (i : CetIdx) (v : VerifyStatus) : TablesOnly s (s.setStatus i v) :=
  s.setEntry_tables i _

theorem State.bumpGeneration_tables (s : State) : TablesOnly s s.bumpGeneration := setCet_tables _ _ rfl rfl

theorem State.setRetEntry_tables (s : State) (i : RetIdx) (e : Option RetEntry) : TablesOnly s (s.setRetEntry i e) :=
  setRetire_tables _ _

theorem State.suppress_tables (s : State) (i : RetIdx) : TablesOnly s (s.suppress i) := setRetire_tables _ _

theorem State.dropEvidence_tables (s : State) (i : CetIdx) : TablesOnly s (s.dropEvidence i) := setRetire_tables _ _

theorem State.unlinkAll_tables (s : State) (i : RetIdx) : TablesOnly s (s.unlinkAll i) := setCet_tables _ _ rfl rfl

theorem State.propose_tables (s : State) (r : Range) (ev : Evidence) : TablesOnly s (s.propose r ev).1 := by
  unfold State.propose
  split
  · exact setRetire_tables _ _
  · split
    · exact (s.setRetEntry_tables _ _).trans (State.setFlag_tables _ _)
    · exact (setRetire_tables s _).trans (State.setFlag_tables _ _)

theorem State.setJobs_tables (s : State) (jobs : List Job) : TablesOnly s (s.setJobs jobs) := setVerify_tables _ _ ⟨rfl, rfl⟩

theorem State.setRecord_tables (s : State) (ch : Chan) (r : Option ReadRecord) : TablesOnly s (s.setRecord ch r) :=
  setVerify_tables _ _ ⟨rfl, rfl⟩

theorem State.noteAbort_tables (s : State) (r : AbortReason) (i : CetIdx) : TablesOnly s (s.noteAbort r i) := by
  refine TablesOnly.trans ?_ (State.setFlag_tables _ _)
  exact setVerify_tables _ _ ⟨rfl, rfl⟩

theorem makeHead_tables (jobs : List Job) (s : State) : TablesOnly s (makeHead jobs s) := by
  induction jobs generalizing s with
  | nil => exact s.setJobs_tables []
  | cons j rest ih =>
    unfold makeHead
    split
    · exact (s.setStatus_tables _ _).trans (State.setJobs_tables _ _)
    · exact ((s.setStatus_tables _ _).trans (State.noteAbort_tables _ _ _)).trans (ih _)

theorem State.createJob_tables (s : State) (i : CetIdx) (ch : Chan) : TablesOnly s (s.createJob i ch) := by
  unfold State.createJob
  dsimp only
  split
  · exact (s.setStatus_tables _ _).trans (makeHead_tables _ _)
  · exact (s.setStatus_tables _ _).trans (State.setJobs_tables _ _)

theorem State.orphanRecord_tables (s : State) (ch : Chan) : TablesOnly s (s.orphanRecord ch) := s.setRecord_tables _ _

theorem State.abortJob_tables (s : State) (r : AbortReason) (i : CetIdx) : TablesOnly s (s.abortJob r i) := by
  unfold State.abortJob
  split
  · exact TablesOnly.refl s
  · split
    · exact ((((s.setJobs_tables _).trans (State.setStatus_tables _ _ _)).trans (State.orphanRecord_tables _ _)).trans
        (State.noteAbort_tables _ _ _)).trans (makeHead_tables _ _)
    · split
      · exact ((s.setJobs_tables _).trans (State.setStatus_tables _ _ _)).trans (State.noteAbort_tables _ _ _)
      · exact TablesOnly.refl s

theorem State.abortRunningOn_tables (s : State) (ch : Chan) : TablesOnly s (s.abortRunningOn ch) := by
  unfold State.abortRunningOn
  split
  · exact TablesOnly.refl s
  · split
    · exact s.abortJob_tables _ _
    · exact TablesOnly.refl s

theorem State.emptyVerify_tables (s : State) : TablesOnly s s.emptyVerify := by
  refine TablesOnly.trans ?_ (setCet_tables _ _ rfl rfl)
  exact setVerify_tables _ _ ⟨rfl, rfl⟩

theorem State.freeEntry_tables (s : State) (i : CetIdx) (r : Option AbortReason) : TablesOnly s (s.freeEntry i r) := by
  unfold State.freeEntry
  split
  · exact TablesOnly.refl s
  · dsimp only
    refine TablesOnly.trans ?_ (State.dropEvidence_tables _ _)
    have freed := (s.setEntry_tables i none).trans (State.bumpGeneration_tables _)
    split
    · split
      · exact freed
      · exact freed.trans (State.abortJob_tables _ _ _)
    · exact freed

theorem State.proposalAttempt_tables (s : State) (i : CetIdx) : TablesOnly s (s.proposalAttempt i) := by
  unfold State.proposalAttempt
  split
  · exact TablesOnly.refl s
  · next e _ =>
    have h := s.propose_tables (e.key.range (s.geometry e.key.channel)) (.cet i)
    split <;> rename_i hp <;> rw [hp] at h
    · exact h.trans (State.modEntry_tables _ _ _)
    · exact h.trans (State.modEntry_tables _ _ _)
    · exact h

theorem State.autoVerifyAttempt_tables (s : State) (i : CetIdx) : TablesOnly s (s.autoVerifyAttempt i) := by
  unfold State.autoVerifyAttempt
  split
  · exact TablesOnly.refl s
  · split
    · split
      · exact s.createJob_tables _ _
      · exact setCet_tables _ _ rfl rfl
    · exact TablesOnly.refl s

theorem State.thresholdProposal_tables (s : State) (i : CetIdx) : TablesOnly s (s.thresholdProposal i) := by
  unfold State.thresholdProposal
  split
  · exact s.proposalAttempt_tables i
  · exact TablesOnly.refl s

theorem State.promote_tables (s : State) (i : CetIdx) : TablesOnly s (s.promote i) := by
  unfold State.promote
  dsimp only
  refine TablesOnly.trans ?_ (State.thresholdProposal_tables _ _)
  have raised : TablesOnly s ((s.modEntry i _).setFlag .ceThreshold) :=
    (s.modEntry_tables i (fun e => { e with state := .overThreshold })).trans (State.setFlag_tables _ _)
  split
  · exact raised.trans (State.autoVerifyAttempt_tables _ _)
  · exact raised

theorem State.promotionTest_tables (s : State) (i : CetIdx) : TablesOnly s (s.promotionTest i) := by
  unfold State.promotionTest
  split
  · exact TablesOnly.refl s
  · split
    · exact s.promote_tables i
    · exact TablesOnly.refl s

theorem State.cetHit_tables (s : State) (i : CetIdx) (r : CeRecord) : TablesOnly s (s.cetHit i r) := by
  unfold State.cetHit
  split
  · exact TablesOnly.refl s
  · dsimp only
    split
    · exact (s.setEntry_tables _ _).trans (State.promotionTest_tables _ _)
    · exact (s.setEntry_tables _ _).trans (State.thresholdProposal_tables _ _)

theorem State.allocate_tables (s : State) (i : CetIdx) (r : CeRecord) : TablesOnly s (s.allocate i r) :=
  ((s.setEntry_tables _ _).trans (State.bumpGeneration_tables _)).trans (State.promotionTest_tables _ _)

theorem State.replace_tables (s : State) (i : CetIdx) (r : CeRecord) : TablesOnly s (s.replace i r) := by
  refine TablesOnly.trans (s.freeEntry_tables i none) (TablesOnly.trans ?_ (State.allocate_tables _ _ _))
  exact setCet_tables _ _ rfl rfl

theorem State.dropRecord_tables (s : State) : TablesOnly s s.dropRecord := by
  refine TablesOnly.trans ?_ (State.setFlag_tables _ _)
  exact setCet_tables _ _ rfl rfl

theorem State.takeCe_tables (s : State) (r : CeRecord) : TablesOnly s (s.takeCe r) := by
  unfold State.takeCe
  split
  · exact s.cetHit_tables _ _
  · split
    · exact s.allocate_tables _ _
    · split
      · exact s.replace_tables _ _
      · exact s.dropRecord_tables

theorem State.freeAll_tables (s : State) (is : List CetIdx) (r : Option AbortReason) : TablesOnly s (s.freeAll is r) := by
  unfold State.freeAll
  induction is generalizing s with
  | nil => exact TablesOnly.refl s
  | cons i is ih => exact (s.freeEntry_tables i r).trans (ih _)

theorem State.leakTable_tables (s : State) : TablesOnly s s.leakTable := by
  refine TablesOnly.trans ?_ (State.freeAll_tables _ _ _)
  exact setCet_tables _ _ rfl rfl

theorem State.reachOutcome_tables (s : State) (j : Job) (rest : List Job) : TablesOnly s (s.reachOutcome j rest) := by
  unfold State.reachOutcome
  dsimp only
  refine TablesOnly.trans ?_ (makeHead_tables _ _)
  refine TablesOnly.trans ?_ (State.setJobs_tables _ _)
  have flagged : TablesOnly s ((s.modEntry j.cet _).setFlag .verifyDone) :=
    (s.modEntry_tables j.cet (fun e => { e with result := some (j.outcome, s.now), status := .idle })).trans
      (State.setFlag_tables _ _)
  split
  · exact flagged.trans (State.proposalAttempt_tables _ _)
  · exact flagged

theorem State.countRead_tables (s : State) (r : ReadResult) : TablesOnly s (s.countRead r) := by
  unfold State.countRead
  split
  · exact TablesOnly.refl s
  · dsimp only
    split
    · exact s.reachOutcome_tables _ _
    · exact s.setJobs_tables _

theorem State.endRead_tables (s : State) (ch : Chan) (tag : Tag) (number : BitVec 8) (r : Option ReadResult) :
    TablesOnly s (s.endRead ch tag number r) := by
  unfold State.endRead
  split
  · exact TablesOnly.refl s
  · split
    · dsimp only
      split
      · split
        · exact (s.setRecord_tables _ _).trans (State.countRead_tables _ _)
        · exact s.setRecord_tables _ _
      · exact s.setRecord_tables _ _
    · exact TablesOnly.refl s

end Sys2Proof.Machine
end

