-- ==== Sys2Proof/Laws/Links.lean ====
section
/-! SUPPORT. What the link receivers do to a channel: the abandonment of its requests, the departure from ACTIVE, the entry to SYNCING and
to DOWN (R110, R113, R121, R141). -/

namespace Sys2Proof.Machine

@[simp] theorem State.link_modLink (s : State) (ch c : Chan) (f : Link → Link) :
    (s.modLink ch f).link c = if c = ch then f (s.link ch) else s.link c := Table.get_modify _ _ _ _

@[simp] theorem State.scrub_modScrub (s : State) (ch c : Chan) (f : Scrub → Scrub) :
    (s.modScrub ch f).scrub c = if c = ch then f (s.scrub ch) else s.scrub c := Table.get_modify _ _ _ _

theorem State.txs_modTx (s : State) (ch c : Chan) (f : Transmitter → Transmitter) :
    (s.modTx ch f).txs.get c = if c = ch then f (s.txs.get ch) else s.txs.get c := Table.get_modify _ _ _ _

/-- A flag that has been set is set, and every other flag is as it was. -/
theorem State.flagged_setFlag (s : State) (f g : EventFlag) : (s.setFlag f).flagged g = (s.flagged g || decide (g = f)) := by
  simp only [State.flagged, State.setFlag, State.setEvents, BitVec.getLsbD_or, EventFlag.mask, BitVec.getLsbD_twoPow]
  cases f <;> cases g <;> simp [EventFlag.pos]

/-- Flags that grow keep every flag that was set. -/
theorem TablesOnly.flagged {s t : State} (h : TablesOnly s t) {f : EventFlag} (hf : s.flagged f = true) : t.flagged f = true := by
  have : (s.events.flags &&& t.events.flags).getLsbD f.pos.val = s.events.flags.getLsbD f.pos.val := by rw [h.events.2]
  simp only [State.flagged] at *
  simp_all

theorem TablesOnly.link {s t : State} (h : TablesOnly s t) (ch : Chan) : t.link ch = s.link ch := by simp [State.link, h.links]

theorem TablesOnly.scrub {s t : State} (h : TablesOnly s t) (ch : Chan) : t.scrub ch = s.scrub ch := by simp [State.scrub, h.scrubs]

/-- R141: an abandoned scrub context has no tag in use, no timeout in a row and no hold. -/
theorem Scrub.abandon_eq (c : Scrub) : c.abandon =
    { c with
      tags := c.tags.map (fun _ => none)
      timeoutRun := 0
      holdFlag := false
      ceilingTimer := if c.holdFlag then none else c.ceilingTimer
      patrol := if c.holdFlag = true ∧ (c.patrol = .draining ∨ c.patrol = .held) then .running else c.patrol } := by
  unfold Scrub.abandon Scrub.freeTags Scrub.release
  cases h : c.holdFlag <;> simp

theorem State.tellAbandoned_tables (s : State) (ch : Chan) (r : Option ReadResult) (tags : List (Tag × Option Request)) :
    TablesOnly s (s.tellAbandoned ch r tags) := by
  unfold State.tellAbandoned
  induction tags generalizing s with
  | nil => exact TablesOnly.refl s
  | cons x rest ih =>
    refine TablesOnly.trans ?_ (ih _)
    dsimp only
    split
    · split
      · exact s.endRead_tables _ _ _ _
      · exact TablesOnly.refl s
    · exact TablesOnly.refl s

/-- R141: apart from the tables, the abandonment of a channel's requests changes that channel's scrub context alone. -/
theorem State.abandonRequests_tables (s : State) (ch : Chan) (r : Option ReadResult) :
    TablesOnly (s.modScrub ch Scrub.abandon) (s.abandonRequests ch r) :=
  State.tellAbandoned_tables _ _ _ _

/-- R151: the job that `makeHead` leaves as the head has an ACTIVE link. -/
theorem makeHead_active (jobs : List Job) (s : State) (j : Job) (h : (makeHead jobs s).verify.jobs.head? = some j) :
    (s.link j.channel).state = .active := by
  induction jobs generalizing s with
  | nil => simp [makeHead, State.setJobs] at h
  | cons k rest ih =>
    unfold makeHead at h
    split at h
    · simp only [State.setJobs, State.setVerify_verify, List.head?_cons, Option.some.injEq] at h
      subst h
      simpa [State.linkActive] using ‹s.linkActive k.channel = true›
    · have := ih _ h
      rwa [((s.setStatus_tables _ _).trans (State.noteAbort_tables _ _ _)).link] at this

/-- R113: once its link is not ACTIVE, no RUNNING job of a channel is left. -/
theorem State.abortRunningOn_head (s : State) (ch : Chan) (hd : (s.link ch).state ≠ .active) (j : Job)
    (h : (s.abortRunningOn ch).verify.jobs.head? = some j) : j.channel ≠ ch := by
  unfold State.abortRunningOn at h
  split at h
  · rename_i hj; simp [hj] at h
  · rename_i k rest hj
    split at h
    · rename_i hk
      unfold State.abortJob at h
      simp only [hj, if_true] at h
      have := makeHead_active _ _ _ h
      intro hc
      rw [((((s.setJobs_tables _).trans (State.setStatus_tables _ _ _)).trans (State.orphanRecord_tables _ _)).trans
        (State.noteAbort_tables _ _ _)).link, hc] at this
      exact hd this
    · rename_i hk
      rw [hj] at h
      simp only [List.head?_cons, Option.some.injEq] at h
      subst h; exact hk

/-- No waiting frame but a SYNC_REQUEST survives a withdrawal. -/
theorem Transmitter.withdraw_waiting (t : Transmitter) : ∀ f ∈ t.withdraw.waiting, f = .syncRequest := by
  intro f hf
  simp only [Transmitter.withdraw, List.mem_filter] at hf
  cases f <;> simp [DownFrame.isSync] at hf ⊢

/-- R113: the state that a departure leaves, apart from what the verify queue and the tables do. -/
def State.left (s : State) (ch : Chan) (st : LinkState) : State :=
  ((((s.setLinkState ch st).modLink ch Link.dropCredits).modTx ch Transmitter.withdraw).modScrub ch Scrub.abandon)

/-- R113: a departure from ACTIVE. -/
theorem State.departActive_tables (s : State) (ch : Chan) (st : LinkState) :
    TablesOnly (s.left ch st) (s.departActive ch st) :=
  (State.abandonRequests_tables _ ch none).trans (State.abortRunningOn_tables _ _)

end Sys2Proof.Machine
end

