-- ==== Sys2Proof/Laws/Verify.lean ====
section
/-! SUPPORT. What a change of the head job and an abort do to the entries and to the queue (R151, R156): verify statuses, and nothing else
of the CET. -/

namespace Sys2Proof.Machine

/-- An entry without regard to its verify status. -/
def CetEntry.still (e : CetEntry) : CetEntry := { e with status := .idle }

/-- A new verify status leaves every entry as it was apart from it. -/
theorem State.setStatus_still (s : State) (i j : CetIdx) (v : VerifyStatus) :
    ((s.setStatus i v).entry j).map CetEntry.still = (s.entry j).map CetEntry.still := by
  simp only [State.setStatus, State.modEntry, State.setEntry, State.entry, State.setCet, Table.get_set]
  split
  · rename_i h; subst h; simp only [Option.map_map]; rfl
  · rfl

/-- A new verify status keeps the number of valid entries. -/
theorem State.setStatus_occupancy (s : State) (i : CetIdx) (v : VerifyStatus) :
    (s.setStatus i v).cet.occupancy = s.cet.occupancy := by
  have := Table.count_set s.cet.entries Option.isSome i ((s.entry i).map (fun e => { e with status := v }))
  simp only [State.setStatus, State.modEntry, State.setEntry, State.setCet, Cet.occupancy, State.entry, Option.isSome_map] at *
  omega

/-- The jobs that `makeHead` leaves are the last of those it was given. -/
theorem makeHead_jobs (jobs : List Job) (s : State) :
    ((makeHead jobs s).verify.jobs.map Job.cet) <:+ (jobs.map Job.cet) := by
  induction jobs generalizing s with
  | nil => simp [makeHead, State.setJobs]
  | cons j rest ih =>
    unfold makeHead
    split
    · simp [State.setJobs]
    · exact (ih _).trans (List.suffix_cons _ _)

/-- `makeHead` leaves the entries that have none of the jobs as they were. -/
theorem makeHead_entry_of_not_mem (jobs : List Job) (s : State) (i : CetIdx) (h : i ∉ jobs.map Job.cet) :
    (makeHead jobs s).entry i = s.entry i := by
  induction jobs generalizing s with
  | nil => rfl
  | cons j rest ih =>
    simp only [List.map_cons, List.mem_cons, not_or] at h
    unfold makeHead
    split
    · simp [State.setJobs, State.setStatus, State.modEntry, State.setEntry, State.entry, h.1]
    · rw [ih _ h.2]
      simp [State.noteAbort, State.setFlag, State.setStatus, State.modEntry, State.setEntry, State.entry, h.1]

/-- What `makeHead` keeps: every entry apart from its verify status, the list, the counts of the CET and the read records. -/
theorem makeHead_kept (jobs : List Job) (s : State) :
    (∀ i, ((makeHead jobs s).entry i).map CetEntry.still = (s.entry i).map CetEntry.still) ∧
      (makeHead jobs s).retire = s.retire ∧ (makeHead jobs s).cet.generation = s.cet.generation ∧
      (makeHead jobs s).cet.occupancy = s.cet.occupancy ∧ (makeHead jobs s).verify.records = s.verify.records := by
  induction jobs generalizing s with
  | nil => exact ⟨fun _ => rfl, rfl, rfl, rfl, rfl⟩
  | cons j rest ih =>
    unfold makeHead
    split
    · exact ⟨fun i => s.setStatus_still _ i _, rfl, rfl, s.setStatus_occupancy _ _, rfl⟩
    · obtain ⟨a, b, c, d, e⟩ := ih ((s.setStatus j.cet .idle).noteAbort .link j.cet)
      exact ⟨fun i => (a i).trans (s.setStatus_still _ i _), b, c, d.trans (s.setStatus_occupancy _ _), e⟩

/-- R151, R156: an abort with reason LINK ahead of a change of the head. -/
theorem HeadChange.cons {s u t : State} {j : Job} {gone jobs : List Job}
    (he : ∀ i, u.entry i = (s.entry i).map (fun e => { e with status := if i = j.cet then .idle else e.status }))
    (hl : u.verify.lastAbort = some (.link, j.cet)) (hf : u.flagged .verifyAborted = true)
    (hc : u.cet = { s.cet with entries := u.cet.entries })
    (hv : u.verify = { s.verify with jobs := u.verify.jobs, records := u.verify.records, lastAbort := u.verify.lastAbort })
    (h : HeadChange gone jobs u t) : HeadChange (j :: gone) jobs s t where
  queue := by
    rw [h.queue]
    cases jobs with
    | nil => rfl
    | cons k rest => simp only [he, Option.map_map]; rfl
  lastAbort := by
    rw [h.lastAbort, List.getLast?_cons]
    cases gone.getLast? <;> simp [hl]
  flag := by simp [h.flag, hf]
  entries := fun i => by
    rw [h.entries, he, Option.map_map]
    congr 1
    funext e
    simp only [Function.comp_apply, List.map_cons, List.mem_cons]
    split
    · rfl
    · by_cases hi : i = j.cet <;> simp [hi]
  cet := by rw [h.cet, hc]
  verify := by rw [h.verify, hv]

theorem State.passedOver_cons (s : State) (j : Job) (rest : List Job) :
    s.passedOver (j :: rest) = if (s.link j.channel).state = .active then [] else j :: s.passedOver rest := by
  simp only [State.passedOver, List.takeWhile_cons]; split <;> simp_all

theorem State.fromHead_cons (s : State) (j : Job) (rest : List Job) :
    s.fromHead (j :: rest) = if (s.link j.channel).state = .active then j :: rest else s.fromHead rest := by
  simp only [State.fromHead, List.dropWhile_cons]; split <;> simp_all

/-- A new verify status, entry by entry. -/
theorem State.entry_setStatus (s : State) (i j : CetIdx) (v : VerifyStatus) :
    (s.setStatus i v).entry j = (s.entry j).map (fun e => { e with status := if j = i then v else e.status }) := by
  simp only [State.setStatus, State.modEntry, State.setEntry, State.entry, State.setCet, Table.get_set]
  split
  · rename_i h; subst h; simp
  · simp

/-- R151: everything that `makeHead` does. -/
theorem makeHead_headChange (jobs : List Job) (s : State) :
    HeadChange (s.passedOver jobs) (s.fromHead jobs) s (makeHead jobs s) := by
  induction jobs generalizing s with
  | nil =>
    refine ⟨rfl, rfl, ?_, fun i => ?_, rfl, rfl⟩
    · simp [State.passedOver, makeHead, State.setJobs, State.flagged]
    · simp [State.passedOver, State.fromHead, makeHead, State.setJobs, State.entry]
  | cons j rest ih =>
    rw [State.passedOver_cons, State.fromHead_cons]
    unfold makeHead
    by_cases ha : (s.link j.channel).state = .active
    · simp only [ha, State.linkActive, beq_self_eq_true, if_true]
      refine ⟨rfl, rfl, ?_, fun i => ?_, rfl, rfl⟩
      · simp [State.setJobs, State.flagged, State.setStatus, State.modEntry, State.setEntry]
      · have : ((s.setStatus j.cet .running).setJobs
            ({ j with location := (s.entry j.cet).map CetEntry.readLoc } :: rest)).entry i = (s.setStatus j.cet .running).entry i := rfl
        rw [this, State.entry_setStatus]
        congr 1; funext e
        simp [eq_comm (a := i)]
    · simp only [ha, State.linkActive, beq_iff_eq, if_false]
      refine HeadChange.cons (u := (s.setStatus j.cet .idle).noteAbort .link j.cet) (fun i => ?_) rfl ?_ rfl rfl ?_
      · exact s.entry_setStatus _ _ _
      · simp [State.noteAbort, State.flagged_setFlag]
      · exact ih ((s.setStatus j.cet .idle).noteAbort .link j.cet)
/-- R113: the abort of a RUNNING job of a channel keeps every entry apart from its verify status, and the list. -/
theorem State.abortRunningOn_kept (s : State) (ch : Chan) :
    (∀ i, ((s.abortRunningOn ch).entry i).map CetEntry.still = (s.entry i).map CetEntry.still) ∧
      (s.abortRunningOn ch).retire = s.retire := by
  unfold State.abortRunningOn
  split
  · exact ⟨fun _ => rfl, rfl⟩
  · rename_i j rest hj
    split
    · unfold State.abortJob
      simp only [hj, if_true]
      obtain ⟨a, b, -⟩ := makeHead_kept rest ((((s.setJobs rest).setStatus j.cet .idle).orphanRecord j.channel).noteAbort .link j.cet)
      exact ⟨fun i => (a i).trans ((s.setJobs rest).setStatus_still _ i _), b⟩
    · exact ⟨fun _ => rfl, rfl⟩

theorem State.endRead_none_kept (s : State) (ch : Chan) (tag : Tag) (number : BitVec 8) :
    (s.endRead ch tag number none).cet = s.cet ∧ (s.endRead ch tag number none).retire = s.retire ∧
      (s.endRead ch tag number none).verify.jobs = s.verify.jobs := by
  unfold State.endRead
  split
  · exact ⟨rfl, rfl, rfl⟩
  · split <;> exact ⟨rfl, rfl, rfl⟩

/-- R141: requests that are abandoned at a departure count nowhere: the CET, the list and the jobs are kept. -/
theorem State.abandonRequests_none_kept (s : State) (ch : Chan) :
    (s.abandonRequests ch none).cet = s.cet ∧ (s.abandonRequests ch none).retire = s.retire ∧
      (s.abandonRequests ch none).verify.jobs = s.verify.jobs := by
  unfold State.abandonRequests State.tellAbandoned
  generalize hm : s.modScrub ch Scrub.abandon = t
  have h0 : t.cet = s.cet ∧ t.retire = s.retire ∧ t.verify.jobs = s.verify.jobs := by subst hm; exact ⟨rfl, rfl, rfl⟩
  rw [← h0.1, ← h0.2.1, ← h0.2.2]
  clear hm h0
  induction (s.scrub ch).tagList generalizing t with
  | nil => exact ⟨rfl, rfl, rfl⟩
  | cons x rest ih =>
    simp only [List.foldl_cons]
    cases x.2 with
    | none => exact ih t
    | some q =>
      by_cases hq : q.kind = .verify
      · simp only [hq, if_true]
        obtain ⟨a, b, c⟩ := ih (t.endRead ch x.1 q.number none)
        obtain ⟨d, e, f⟩ := t.endRead_none_kept ch x.1 q.number
        exact ⟨a.trans d, b.trans e, c.trans f⟩
      · simp only [hq, if_false]; exact ih t

end Sys2Proof.Machine
end

