-- ==== Sys2Proof/Laws/Departures.lean ====
section
/-! SUPPORT. What a departure of a link from ACTIVE leaves, in every block that it reaches (R113, R141, R153, R156). -/

namespace Sys2Proof.Machine

/-- R153: the count of a read touches no read record. -/
theorem State.countRead_records (s : State) (x : ReadResult) : (s.countRead x).verify.records = s.verify.records := by
  have proposal : ∀ (t : State) (i : CetIdx), (t.proposalAttempt i).verify = t.verify := by
    intro t i
    unfold State.proposalAttempt State.propose
    cases t.entry i with
    | none => rfl
    | some e =>
      dsimp only
      cases t.overlapping (e.key.range (t.geometry e.key.channel)) with
      | some j => rfl
      | none => cases t.freeRetire <;> rfl
  unfold State.countRead State.reachOutcome
  split
  · rfl
  · dsimp only
    split
    · rw [(makeHead_kept _ _).2.2.2.2]
      simp only [State.setJobs, State.setVerify_verify]
      split
      · rw [proposal]; rfl
      · rfl
    · rfl

/-- R153: the end of a read makes the channel's record absent where it is the record of that read, and touches no other. -/
theorem State.endRead_records (s : State) (ch : Chan) (tag : Tag) (number : BitVec 8) (x : Option ReadResult) :
    (s.endRead ch tag number x).verify.records =
      if (s.verify.records.get ch).any (fun r => r.tag = tag ∧ r.number = number) then s.verify.records.set ch none
      else s.verify.records := by
  unfold State.endRead
  cases h : s.verify.records.get ch with
  | none => simp
  | some r =>
    by_cases hm : r.tag = tag ∧ r.number = number
    · simp only [hm, and_self, if_true, Option.any_some, decide_true]
      split
      · split
        · rw [State.countRead_records]; rfl
        · rfl
      · rfl
    · simp [hm]

/-- R153: a read whose end does not count changes the channel's record alone. -/
theorem State.endRead_none_eq (s : State) (ch : Chan) (tag : Tag) (number : BitVec 8) :
    s.endRead ch tag number none = s.setVerify { s.verify with records := (s.endRead ch tag number none).verify.records } := by
  unfold State.endRead
  split
  · rfl
  · split <;> rfl

/-- R141: requests that are abandoned at a departure change nothing but the channel's read record. -/
theorem State.tellAbandoned_none_eq (s : State) (ch : Chan) (tags : List (Tag × Option Request)) :
    s.tellAbandoned ch none tags =
      s.setVerify { s.verify with records := (s.tellAbandoned ch none tags).verify.records } := by
  unfold State.tellAbandoned
  induction tags generalizing s with
  | nil => rfl
  | cons x rest ih =>
    simp only [List.foldl_cons]
    rw [ih]
    split
    · split
      · rw [State.endRead_none_eq]; rfl
      · rfl
    · rfl

/-- R141: the abandonment of a channel's requests leaves the records of the other channels. -/
theorem State.tellAbandoned_others (s : State) (ch c : Chan) (x : Option ReadResult) (tags : List (Tag × Option Request))
    (h : c ≠ ch) : (s.tellAbandoned ch x tags).verify.records.get c = s.verify.records.get c := by
  unfold State.tellAbandoned
  induction tags generalizing s with
  | nil => rfl
  | cons y rest ih =>
    simp only [List.foldl_cons]
    rw [ih]
    split
    · split
      · rw [State.endRead_records]; split <;> simp [h]
      · rfl
    · rfl

/-- R141: once absent, the channel's record stays absent. -/
theorem State.tellAbandoned_absent (s : State) (ch : Chan) (x : Option ReadResult) (tags : List (Tag × Option Request))
    (h : s.verify.records.get ch = none) : (s.tellAbandoned ch x tags).verify.records.get ch = none := by
  unfold State.tellAbandoned
  induction tags generalizing s with
  | nil => exact h
  | cons y rest ih =>
    simp only [List.foldl_cons]
    apply ih
    split
    · split
      · rw [State.endRead_records]; simp [h]
      · exact h
    · exact h

/-- R141, R153: the channel's record becomes absent with the abandonment of the request that it names. -/
theorem State.tellAbandoned_record (s : State) (ch : Chan) (x : Option ReadResult) (tags : List (Tag × Option Request))
    (h : ∀ r, s.verify.records.get ch = some r → ∃ q, (r.tag, some q) ∈ tags ∧ q.kind = .verify ∧ q.number = r.number) :
    (s.tellAbandoned ch x tags).verify.records.get ch = none := by
  induction tags generalizing s with
  | nil =>
    cases hr : s.verify.records.get ch with
    | none => exact State.tellAbandoned_absent _ _ _ _ hr
    | some r => obtain ⟨q, hq, -⟩ := h r hr; cases hq
  | cons y rest ih =>
    cases hr : s.verify.records.get ch with
    | none => exact State.tellAbandoned_absent _ _ _ _ hr
    | some r =>
      obtain ⟨q, hq, hk, hn⟩ := h r hr
      show ((match y.2 with
        | some q => if q.kind = RequestKind.verify then s.endRead ch y.1 q.number x else s
        | none => s).tellAbandoned ch x rest).verify.records.get ch = none
      by_cases hy : y = (r.tag, some q)
      · subst hy
        simp only [hk, if_true]
        apply State.tellAbandoned_absent
        rw [State.endRead_records, hr]
        simp [hn]
      · have hq' : (r.tag, some q) ∈ rest := by
          rcases List.mem_cons.mp hq with h | h
          · exact absurd h.symm hy
          · exact h
        apply ih
        intro r' hr'
        have : r' = r := by
          revert hr'
          split
          · split
            · rw [State.endRead_records]
              split <;> simp [hr, eq_comm]
            · simp [hr, eq_comm]
          · simp [hr, eq_comm]
        subst this
        exact ⟨q, hq', hk, hn⟩

/-- R113, R155, R156: the abort of the RUNNING job of a channel at a departure. -/
theorem State.abortRunningOn_headChange (s : State) (ch : Chan) {j : Job} {rest : List Job} (hj : s.verify.jobs = j :: rest)
    (hc : j.channel = ch) :
    HeadChange (j :: s.passedOver rest) (s.fromHead rest) s (s.abortRunningOn ch) ∧
      (s.abortRunningOn ch).verify.records = s.verify.records.set ch ((s.verify.records.get ch).map (fun r => { r with owned := false })) := by
  unfold State.abortRunningOn State.abortJob
  simp only [hj, hc, if_true]
  refine ⟨HeadChange.cons (u := (((s.setJobs rest).setStatus j.cet .idle).orphanRecord ch).noteAbort .link j.cet) (fun i => ?_) rfl ?_
    rfl rfl ?_, ?_⟩
  · exact State.entry_setStatus s _ _ _
  · simp [State.noteAbort, State.flagged_setFlag]
  · exact makeHead_headChange rest ((((s.setJobs rest).setStatus j.cet .idle).orphanRecord ch).noteAbort .link j.cet)
  · rw [(makeHead_kept _ _).2.2.2.2]; rfl

theorem State.abortRunningOn_unmoved (s : State) (ch : Chan) (h : ∀ j, s.verify.jobs.head? = some j → j.channel ≠ ch) :
    s.abortRunningOn ch = s := by
  unfold State.abortRunningOn
  split
  · rfl
  · rename_i j rest hj
    rw [if_neg (h j (by rw [hj]; rfl))]

/-- R151: the links decide which jobs are passed over. -/
theorem TablesOnly.passedOver {s t : State} (h : TablesOnly s t) (jobs : List Job) : t.passedOver jobs = s.passedOver jobs := by
  simp [State.passedOver, h.link]

theorem TablesOnly.fromHead {s t : State} (h : TablesOnly s t) (jobs : List Job) : t.fromHead jobs = s.fromHead jobs := by
  simp [State.fromHead, h.link]

/-- A change of the head told from a state with the same CET, queue and VERIFY_ABORTED flag. -/
theorem HeadChange.of_same {s u t : State} {gone jobs : List Job} (h : HeadChange gone jobs u t) (hc : u.cet = s.cet)
    (hv : u.verify = { s.verify with records := u.verify.records }) (hf : u.flagged .verifyAborted = s.flagged .verifyAborted) :
    HeadChange gone jobs s t where
  queue := by
    have he : ∀ i, u.entry i = s.entry i := fun i => by simp [State.entry, hc]
    rw [h.queue]; simp only [he]
  lastAbort := by rw [h.lastAbort, hv]
  flag := by rw [h.flag, hf]
  entries := fun i => by rw [h.entries]; simp [State.entry, hc]
  cet := by rw [h.cet, hc]
  verify := by rw [h.verify, hv]

/-- R113, R141, R155: what the scrub engine and the verify queue do when the link of a channel has left ACTIVE. -/
def State.leave (u : State) (ch : Chan) : State := (u.abandonRequests ch none).abortRunningOn ch

theorem State.abandonRequests_none_eq (u : State) (ch : Chan) : u.abandonRequests ch none =
    (u.modScrub ch Scrub.abandon).setVerify { u.verify with records := (u.abandonRequests ch none).verify.records } :=
  State.tellAbandoned_none_eq (u.modScrub ch Scrub.abandon) ch (u.scrub ch).tagList

theorem State.leave_tables (u : State) (ch : Chan) : TablesOnly (u.modScrub ch Scrub.abandon) (u.leave ch) :=
  (State.abandonRequests_tables _ ch none).trans (State.abortRunningOn_tables _ _)

theorem State.leave_aborted (u : State) (ch : Chan) {j : Job} {rest : List Job} (hj : u.verify.jobs = j :: rest)
    (hc : j.channel = ch) : HeadChange (j :: (u.leave ch).passedOver rest) ((u.leave ch).fromHead rest) u (u.leave ch) ∧
      ∀ r, (u.leave ch).verify.records.get ch = some r → r.owned = false := by
  have ht := (u.abandonRequests ch none).abortRunningOn_tables ch
  have he := u.abandonRequests_none_eq ch
  obtain ⟨a, b⟩ := (u.abandonRequests ch none).abortRunningOn_headChange ch (j := j) (rest := rest) (by rw [he]; exact hj) hc
  rw [← ht.passedOver, ← ht.fromHead] at a
  refine ⟨a.of_same (by rw [he]; rfl) (by rw [he]; rfl) (by rw [he]; rfl), fun r hr => ?_⟩
  rw [State.leave, b] at hr
  simp only [Table.get_set_self, Option.map_eq_some_iff] at hr
  obtain ⟨q, -, rfl⟩ := hr
  rfl

theorem State.leave_unmoved (u : State) (ch : Chan) (h : ∀ j, u.verify.jobs.head? = some j → j.channel ≠ ch) :
    (u.leave ch).verify.jobs = u.verify.jobs ∧ (u.leave ch).verify.lastAbort = u.verify.lastAbort ∧ (u.leave ch).cet = u.cet ∧
      (u.leave ch).flagged .verifyAborted = u.flagged .verifyAborted := by
  have he := u.abandonRequests_none_eq ch
  have : u.leave ch = u.abandonRequests ch none := State.abortRunningOn_unmoved _ ch (by rw [he]; exact h)
  rw [this, he]; exact ⟨rfl, rfl, rfl, rfl⟩

/-- R147: the tags of a context with the requests that they hold. -/
theorem Scrub.mem_tagList {c : Scrub} {tag : Tag} {q : Request} (h : c.tags.get tag = some q) : (tag, some q) ∈ c.tagList := by
  simp only [Scrub.tagList, List.mem_map]
  exact ⟨tag, List.mem_finRange tag, by rw [h]⟩

/-- The verify queue's own part of an abort of the RUNNING job of a channel leaves the records of the other channels, and an absent
record absent. -/
theorem State.abortRunningOn_records (s : State) (ch c : Chan) (h : c ≠ ch ∨ s.verify.records.get c = none) :
    (s.abortRunningOn ch).verify.records.get c = s.verify.records.get c := by
  by_cases hj : ∀ j, s.verify.jobs.head? = some j → j.channel ≠ ch
  · rw [State.abortRunningOn_unmoved s ch hj]
  · push Not at hj
    obtain ⟨j, hj, hc⟩ := hj
    obtain ⟨rest, hr⟩ : ∃ rest, s.verify.jobs = j :: rest := by
      cases hl : s.verify.jobs with
      | nil => simp [hl] at hj
      | cons k rest => simp [hl] at hj; exact ⟨rest, by rw [hj]⟩
    rw [(s.abortRunningOn_headChange ch hr hc).2, Table.get_set]
    split
    · rename_i he
      subst he
      rcases h with h | h
      · exact absurd rfl h
      · simp [h]
    · rfl

theorem State.leave_record (u : State) (ch : Chan) (h : u.RecordLaw) : (u.leave ch).verify.records.get ch = none := by
  have ha : (u.abandonRequests ch none).verify.records.get ch = none := by
    apply State.tellAbandoned_record
    intro r hr
    obtain ⟨q, hq, hk, hn⟩ := (h ch r.tag r.number).mpr ⟨r, hr, rfl, rfl⟩
    exact ⟨q, Scrub.mem_tagList hq, hk, hn⟩
  rw [State.leave, State.abortRunningOn_records _ _ _ (Or.inr ha), ha]

theorem State.leave_others (u : State) {ch c : Chan} (h : c ≠ ch) :
    (u.leave ch).verify.records.get c = u.verify.records.get c := by
  rw [State.leave, State.abortRunningOn_records _ _ _ (Or.inl h)]
  exact State.tellAbandoned_others _ _ _ _ _ h

/-- R113: everything that the departure of a link leaves, from the state `u` in which its receiver and its transmitter have acted. -/
theorem State.leave_departed {s u : State} {ch : Chan}
    (hu : u = { s with
      links := u.links
      txs := u.txs
      events := { s.events with flags := s.events.flags ||| EventFlag.linkChange.mask } })
    (hc : (u.link ch).outstanding = 0 ∧ (u.link ch).awaiting = 0) (hf : (u.link ch).checkFailures = 0)
    (hk : (u.link ch).geometry = (s.link ch).geometry ∧ (u.link ch).expected = (s.link ch).expected)
    (hs : (u.link ch).state ≠ .active) (hw : ∀ f ∈ (u.txs.get ch).waiting, f = .syncRequest)
    (ho : ∀ c, c ≠ ch → u.link c = s.link c ∧ u.txs.get c = s.txs.get c) : Departed s (u.leave ch) ch := by
  have ht := u.leave_tables ch
  have hl : ∀ c, (u.leave ch).link c = u.link c := fun c => by rw [ht.link]; rfl
  have hx : (u.leave ch).txs = u.txs := by rw [ht.txs]; rfl
  have hscr : ∀ c, (u.leave ch).scrub c = if c = ch then (s.scrub ch).abandon else s.scrub c := fun c => by
    rw [ht.scrub, State.scrub_modScrub, hu]; rfl
  have hch : (u.leave ch).scrub ch = (s.scrub ch).abandon := by simp [hscr]
  have flag : u.flagged .verifyAborted = s.flagged .verifyAborted := by
    rw [hu]; exact (s.flagged_setFlag .linkChange .verifyAborted).trans (by simp)
  have hcet : u.cet = s.cet := by rw [hu]
  have hver : u.verify = s.verify := by rw [hu]
  constructor
  · rw [hl]; exact hc
  · rw [hl]; exact hf
  · rw [hl]; exact hk
  · rw [hx]; exact hw
  · intro tag; rw [hch, Scrub.abandon_eq]; simp
  · rw [hch, Scrub.abandon_eq]
  · rw [hch, Scrub.abandon_eq]
  · rw [hch, Scrub.abandon_eq]
  · rw [hch, Scrub.abandon_eq]
  · intro j hj
    refine State.abortRunningOn_head _ ch ?_ j hj
    rw [(State.abandonRequests_tables _ _ _).link]; exact hs
  · intro j rest hj hc
    obtain ⟨a, b⟩ := u.leave_aborted ch (j := j) (rest := rest) (by rw [hver]; exact hj) hc
    exact ⟨a.of_same hcet (by rw [hver]) flag, b⟩
  · intro hj
    obtain ⟨a, b, c, d⟩ := u.leave_unmoved ch (by rw [hver]; exact hj)
    rw [hver] at a b
    exact ⟨a, b, c.trans hcet, d.trans flag⟩
  · intro hr
    refine u.leave_record ch ?_
    rw [hu]; exact hr
  · refine ht.flagged ?_
    have : (u.modScrub ch Scrub.abandon).flagged .linkChange = u.flagged .linkChange := rfl
    rw [this, hu]
    exact (s.flagged_setFlag .linkChange .linkChange).trans (by simp)
  · intro c hc
    rw [hl, hx, hscr, if_neg hc, u.leave_others hc, hver]
    exact ⟨(ho c hc).1, (ho c hc).2, rfl, rfl⟩
  · have hcets : (u.leave ch).cet = { s.cet with entries := (u.leave ch).cet.entries } := by
      by_cases hj : ∀ j, u.verify.jobs.head? = some j → j.channel ≠ ch
      · rw [(u.leave_unmoved ch hj).2.2.1, hcet]
      · push Not at hj
        obtain ⟨j, hj, hc⟩ := hj
        obtain ⟨rest, hr⟩ : ∃ rest, u.verify.jobs = j :: rest := by
          cases hl : u.verify.jobs with
          | nil => simp [hl] at hj
          | cons k rest => simp [hl] at hj; exact ⟨rest, by rw [hj]⟩
        rw [(u.leave_aborted ch hr hc).1.cet, hcet]
    have hvers : (u.leave ch).verify = { s.verify with
        jobs := (u.leave ch).verify.jobs
        records := (u.leave ch).verify.records
        lastAbort := (u.leave ch).verify.lastAbort } := by
      have := ht.settings
      rw [show (u.modScrub ch Scrub.abandon).verify = s.verify from hver] at this
      dsimp only
      rw [← this.1, ← this.2]
    have hret : (u.leave ch).retire = s.retire := by
      rw [State.leave, (State.abortRunningOn_kept _ ch).2, (u.abandonRequests_none_kept ch).2.1, hu]
    have hev : (u.leave ch).events = { s.events with flags := (u.leave ch).events.flags } := by
      have h1 := ht.events.1
      rw [show (u.modScrub ch Scrub.abandon).events = u.events from rfl, hu] at h1
      rw [hu]; exact h1
    rcases ht with ⟨h1, h2, h3, h4, h5, h6, h7, h8, h9, h10, h11, h12, h13, h14, h15, -, -, -, -⟩
    generalize u.leave ch = t at *
    have e : u.modScrub ch Scrub.abandon = { s with
      links := u.links
      txs := u.txs
      scrubs := u.scrubs.modify ch Scrub.abandon
      events := u.events } := by
      rw [hu]; rfl
    rw [e] at h1 h2 h3 h5 h6 h9 h11 h12 h13 h14 h15
    rcases t with ⟨_, _, _, _, _, _, _, _, _, _, _, _, _, _, _, _, _, _, _⟩
    rw [State.mk.injEq]
    exact ⟨h1, h2, hcets, hret, h3, rfl, h5, h6, rfl, rfl, h9, rfl, hvers, h11, h12, h13, hev, h14, h15⟩

/-- R113: everything that a departure to a state other than ACTIVE leaves. -/
theorem State.departActive_departed (s : State) (ch : Chan) (st : LinkState) (hst : st ≠ .active) :
    Departed s (s.departActive ch st) ch ∧
      (s.departActive ch st).link ch = { (s.link ch).dropCredits with state := st } ∧
      (s.departActive ch st).txs.get ch = (s.txs.get ch).withdraw ∧
      (s.departActive ch st).scrub ch = (s.scrub ch).abandon ∧
      (s.departActive ch st).queues = s.queues := by
  have h := s.departActive_tables ch st
  refine ⟨?_, ?_, ?_, ?_, by rw [h.queues]; rfl⟩
  · refine State.leave_departed (u := ((s.setLinkState ch st).modLink ch Link.dropCredits).modTx ch Transmitter.withdraw)
      rfl ?_ ?_ ?_ ?_ ?_ ?_
    all_goals simp [State.setLinkState, State.setFlag, State.link, State.modLink, State.modTx, Link.dropCredits, hst]
    · exact Transmitter.withdraw_waiting _
    · intro c hc; simp [hc]
  · rw [h.link]; simp [State.left, State.setLinkState, State.setFlag, State.link, State.modLink, State.modTx, State.modScrub,
      Link.dropCredits]
  · rw [h.txs]; simp [State.left, State.setLinkState, State.setFlag, State.modLink, State.modTx, State.modScrub]
  · rw [h.scrub]; simp [State.left, State.setLinkState, State.setFlag, State.scrub, State.modLink, State.modTx, State.modScrub]

end Sys2Proof.Machine
end

