-- ==== Sys2Proof/Laws/Engine.lean ====
section
/-! SUPPORT. What a take of the command engine does once the arbiter has chosen a port (R164 to R166). -/

namespace Sys2Proof.Machine

theorem State.whileRunning_running {s : State} (h : s.rst = false) (f : State → State) : s.whileRunning f = .next (f s) := by
  simp [State.whileRunning, h]

theorem State.whileRunning_held {s : State} (h : s.rst = true) (f : State → State) : s.whileRunning f = .next s := by
  simp [State.whileRunning, h]

/-- A chosen port is the arbiter's choice. -/
theorem State.Chosen.choice {s : State} {p : Port} (h : s.Chosen p) : s.arbiterChoice = some p := by
  obtain ⟨-, hp, hr, hb⟩ := h
  cases p <;> simp only [State.mail, Port.other] at hp hr hb <;>
    simp only [State.arbiterChoice, State.engineIdle, hp]
  · cases hs : s.svcMail.state <;> simp_all
    · split <;> simp_all
    · rfl
  · cases hs : s.sysMail.state <;> simp_all
    · split <;> simp_all
    · rfl

/-- The parameters that a latched command sees are those in the mailbox at the take. -/
@[simp] theorem State.latch_latched (s : State) (p : Port) : ((s.latch p).mail p).latched = (s.mail p).params := by
  cases p <;> rfl

/-- An engine command that is chosen, named and admitted does what its body says and completes, or stays RUNNING. -/
theorem State.engineTake_admitted {s : State} {p : Port} (h : s.Chosen p) {names : Word → Table Word 6 → Bool} {a : Admission}
    (body : Body) (hn : names (s.mail p).command (s.mail p).params = true) (ha : (s.latch p).admitted a p = true) :
    s.engineTake names a body =
      match body p (s.mail p).params (s.latch p) with
      | (t, .done code result) => t.complete p code result
      | (t, .running) => t := by
  rcases hb : body p (s.mail p).params (s.latch p) with ⟨t, _ | _⟩ <;>
    simp [State.engineTake, h.choice, hn, State.carryOut, ha, hb]

/-- A chosen command from a port that may not issue it completes with NOT_PERMITTED. -/
theorem State.engineTake_denied {s : State} {p : Port} (h : s.Chosen p) {names : Word → Table Word 6 → Bool} {a : Admission}
    (body : Body) (hn : names (s.mail p).command (s.mail p).params = true) (ha : (s.latch p).admitted a p = false) :
    s.engineTake names a body = (s.latch p).complete p .notPermitted (pages [] [] []) := by
  simp [State.engineTake, h.choice, hn, State.carryOut, ha]

/-- The command code of a take is the code that the row names. -/
theorem State.Takes.named {s : State} {p : Port} {n : Nat} (h : s.Takes p n) :
    codeIs n (s.mail p).command (s.mail p).params = true := by
  simp [codeIs, h.2]

/-- The latch writes the mailbox of its port and the last-served port alone. -/
theorem State.latch_eq (s : State) (p : Port) : s.latch p = s.withTaken p := by cases p <;> rfl

/-- A take that completes at once, without another effect. -/
theorem State.latch_complete (s : State) (p : Port) (code : ResultCode) (result : Pages) :
    (s.latch p).complete p code result = s.withDone p code result := by cases p <;> rfl

/-- Taking a command and completing it do not read or write the tables, so that an effect on the other blocks may be placed before
the take. -/
theorem State.complete_latch_of {s t : State} {p : Port} (he : t.engine = (s.latch p).engine) (hm : t.sysMail = (s.latch p).sysMail)
    (hv : t.svcMail = (s.latch p).svcMail) (code : ResultCode) (result : Pages) :
    t.complete p code result =
      ({ t with engine := s.engine, sysMail := s.sysMail, svcMail := s.svcMail } : State).withDone p code result := by
  cases p <;> simp_all [State.complete, State.latch, State.withDone, State.setMail, State.mail, State.setFlag, State.setEvents,
    State.setSysMail, State.setSvcMail, State.setEngine, doneFlag, Mailbox.completed]



/-- What a command's body leaves, once its answer has been given. -/
def State.answered (p : Port) (x : State × Answer) : State :=
  match x with
  | (t, .done code result) => t.complete p code result
  | (t, .running) => t

theorem State.engineTake_answered {s : State} {p : Port} (h : s.Chosen p) {names : Word → Table Word 6 → Bool} {a : Admission}
    (body : Body) (hn : names (s.mail p).command (s.mail p).params = true) (ha : (s.latch p).admitted a p = true) :
    s.engineTake names a body = State.answered p (body p (s.mail p).params (s.latch p)) := by
  rw [State.engineTake_admitted h body hn ha]
  rcases body p (s.mail p).params (s.latch p) with ⟨t, _ | _⟩ <;> rfl

/-- A command that either port may issue. -/
theorem State.Takes.run_any {s : State} {p : Port} {n : Nat} (h : s.Takes p n) (body : Body) :
    s.whileRunning (fun s => s.engineTake (codeIs n) .any body) =
      .next (State.answered p (body p (s.mail p).params (s.latch p))) := by
  rw [State.whileRunning_running h.1.1, State.engineTake_answered h.1 body h.named rfl]

/-- A retirement command from a port that the authority admits. -/
theorem State.Takes.run_authority {s : State} {p : Port} {n : Nat} (h : s.Takes p n) (ha : s.engine.authority.admits p = true)
    (body : Body) : s.whileRunning (fun s => s.engineTake (codeIs n) .authority body) =
      .next (State.answered p (body p (s.mail p).params (s.latch p))) := by
  rw [State.whileRunning_running h.1.1, State.engineTake_answered h.1 body h.named (by cases p <;> exact ha)]

/-- A service-only command from the Service port. -/
theorem State.Takes.run_service {s : State} {n : Nat} (h : s.Takes .service n) (body : Body) :
    s.whileRunning (fun s => s.engineTake (codeIs n) .serviceOnly body) =
      .next (State.answered .service (body .service (s.mail .service).params (s.latch .service))) := by
  rw [State.whileRunning_running h.1.1, State.engineTake_answered h.1 body h.named rfl]

/-- A SCRUB_CONTROL with its action. -/
theorem State.TakesAction.run {s : State} {p : Port} {n : Nat} (h : s.TakesAction p n) (body : Body) :
    s.whileRunning (fun s => s.engineTake (actionIs n) .any body) =
      .next (State.answered p (body p (s.mail p).params (s.latch p))) := by
  rw [State.whileRunning_running h.1.1.1, State.engineTake_answered h.1.1 body _ rfl]
  have h1 := h.2
  have h2 := h.1.named
  simp only [State.param] at h1
  simp [actionIs, scrubControlCode, scrubAction, h2, h1]

/-- A command from a port that may not issue it is refused. -/
theorem State.Chosen.run_denied {s : State} {p : Port} {names : Word → Table Word 6 → Bool} {a : Admission} (h : s.Chosen p)
    (body : Body) (hn : names (s.mail p).command (s.mail p).params = true) (ha : (s.latch p).admitted a p = false) :
    s.whileRunning (fun s => s.engineTake names a body) = .next (s.withRefusal p .notPermitted) := by
  rw [State.whileRunning_running h.1, State.engineTake_denied h body hn ha, State.latch_complete]; rfl

/-! The parameter words. -/

theorem finOf_some {n k : Nat} {i : Fin n} (h : k = i.val) : finOf n k = some i := by
  subst h; simp [finOf]

theorem finOf_none {n k : Nat} (h : n ≤ k) : finOf n k = none := by
  simp [finOf]; omega

theorem toNat_of_num {w : Word} {k : Nat} (h : w = num k) (hk : k < 2 ^ 32) : w.toNat = k := by
  subst h; simp [num]; omega

theorem chanParam_some {w : Word} {ch : Chan} (h : w = num ch.val) : chanParam w = some ch := by
  have := toNat_of_num h (by have := ch.isLt; omega)
  simp [chanParam, finOf, this]

theorem chanParam_none {w : Word} (h : 8 ≤ w.toNat) : chanParam w = none := finOf_none h

theorem boolOfCode_none {n : Nat} (h : 2 ≤ n) : boolOfCode n = none := by
  unfold boolOfCode; split <;> first | rfl | omega

theorem LocWords.param {a b : Word} {l : Loc} (h : LocWords a b l) : locParam a b = some l := by
  obtain ⟨h1, h2, h3, h4, h5⟩ := h
  simp [locParam, finOf_some h1, finOf_some h2, finOf_some h3, finOf_some h4, finOf_some h5]

theorem RangeWords.param {a b c : Word} {r : Range} (h : RangeWords a b c r) : rangeParam a b c = some r := by
  obtain ⟨h1, h2, h3, h4, h5⟩ := h
  simp [rangeParam, finOf_some h1, finOf_some h2, finOf_some h3, finOf_some h4, finOf_some h5]

theorem BeyondRange.param {a b : Word} (h : BeyondRange a b) : locParam a b = none := by
  unfold locParam
  rcases h with h | h | h | h | h
  · simp [finOf_none h]
  all_goals simp only [finOf_none h]
  · cases finOf 8 (field a 3 0) <;> simp
  · cases finOf 8 (field a 3 0) <;> cases finOf 4 (field a 7 4) <;> simp
  · cases finOf 8 (field a 3 0) <;> cases finOf 4 (field a 7 4) <;> cases finOf 32 (field a 15 8) <;> simp
  · cases finOf 8 (field a 3 0) <;> cases finOf 4 (field a 7 4) <;> cases finOf 32 (field a 15 8) <;>
      cases finOf 1024 (field a 27 16) <;> simp

/-! The operations of the blocks neither read nor write the mailboxes and the engine's own registers, so that an effect may be
placed before the take of the command that has it. -/

/-- A state with the engine's registers and the mailboxes of another. -/
def State.asTaken (s x : State) : State := { s with engine := x.engine, sysMail := x.sysMail, svcMail := x.svcMail }

theorem State.latch_asTaken (s : State) (p : Port) : s.latch p = s.asTaken (s.latch p) := by cases p <;> rfl

theorem State.complete_asTaken (s t : State) (p : Port) (he : t.engine = s.engine) (h1 : t.sysMail = s.sysMail)
    (h2 : t.svcMail = s.svcMail) (code : ResultCode) (result : Pages) :
    (t.asTaken (s.latch p)).complete p code result = t.withDone p code result := by
  rw [State.complete_latch_of (t := t.asTaken (s.latch p)) (s := s) (p := p) rfl rfl rfl, ← he, ← h1, ← h2]; rfl

theorem makeHead_asTaken (jobs : List Job) (s x : State) : makeHead jobs (s.asTaken x) = (makeHead jobs s).asTaken x := by
  induction jobs generalizing s with
  | nil => rfl
  | cons j rest ih =>
    unfold makeHead
    have ha : (s.asTaken x).linkActive j.channel = s.linkActive j.channel := rfl
    rw [ha]
    split
    · rfl
    · exact ih ((s.setStatus j.cet .idle).noteAbort .link j.cet)

theorem State.abortJob_asTaken (s x : State) (r : AbortReason) (i : CetIdx) :
    (s.asTaken x).abortJob r i = (s.abortJob r i).asTaken x := by
  unfold State.abortJob
  have hj : (s.asTaken x).verify.jobs = s.verify.jobs := rfl
  rw [hj]
  split
  · rfl
  · rename_i j rest _
    split
    · exact makeHead_asTaken rest ((((s.setJobs rest).setStatus i .idle).orphanRecord j.channel).noteAbort r i) x
    · split <;> rfl

theorem State.abortRunningOn_asTaken (s x : State) (ch : Chan) : (s.asTaken x).abortRunningOn ch = (s.abortRunningOn ch).asTaken x := by
  unfold State.abortRunningOn
  have hj : (s.asTaken x).verify.jobs = s.verify.jobs := rfl
  rw [hj]
  split
  · rfl
  · split
    · exact s.abortJob_asTaken x _ _
    · rfl

theorem State.freeEntry_asTaken (s x : State) (i : CetIdx) (r : Option AbortReason) :
    (s.asTaken x).freeEntry i r = (s.freeEntry i r).asTaken x := by
  unfold State.freeEntry
  have he : (s.asTaken x).entry i = s.entry i := rfl
  rw [he]
  cases s.entry i with
  | none => rfl
  | some e =>
    cases r with
    | none => rfl
    | some r =>
      dsimp only
      have hf : ((s.asTaken x).setEntry i none).bumpGeneration = (((s.setEntry i none).bumpGeneration)).asTaken x := rfl
      rw [hf]
      split
      · rfl
      · rw [State.abortJob_asTaken]; rfl

theorem State.freeAll_asTaken (s x : State) (is : List CetIdx) (r : Option AbortReason) :
    (s.asTaken x).freeAll is r = (s.freeAll is r).asTaken x := by
  unfold State.freeAll
  induction is generalizing s with
  | nil => rfl
  | cons i is ih => rw [List.foldl_cons, List.foldl_cons, State.freeEntry_asTaken]; exact ih _

theorem State.createJob_asTaken (s x : State) (i : CetIdx) (ch : Chan) :
    (s.asTaken x).createJob i ch = (s.createJob i ch).asTaken x := by
  unfold State.createJob
  have hj : (s.asTaken x).verify = s.verify := rfl
  simp only [hj]
  split
  · exact makeHead_asTaken [newJob i ch s.verify] (s.setStatus i .queued) x
  · rfl

theorem State.endRead_none_asTaken (s x : State) (ch : Chan) (tag : Tag) (number : BitVec 8) :
    (s.asTaken x).endRead ch tag number none = (s.endRead ch tag number none).asTaken x := by
  unfold State.endRead
  have hr : (s.asTaken x).verify.records = s.verify.records := rfl
  rw [hr]
  split
  · rfl
  · split <;> rfl

theorem State.abandonRequests_none_asTaken (s x : State) (ch : Chan) :
    (s.asTaken x).abandonRequests ch none = (s.abandonRequests ch none).asTaken x := by
  unfold State.abandonRequests
  have hm : (s.asTaken x).modScrub ch Scrub.abandon = (s.modScrub ch Scrub.abandon).asTaken x := rfl
  have ht : ((s.asTaken x).scrub ch).tagList = (s.scrub ch).tagList := rfl
  rw [hm, ht]
  generalize s.modScrub ch Scrub.abandon = t
  unfold State.tellAbandoned
  induction (s.scrub ch).tagList generalizing t with
  | nil => rfl
  | cons y rest ih =>
    simp only [List.foldl_cons]
    cases y.2 with
    | none => exact ih t
    | some q =>
      by_cases hq : q.kind = .verify
      · simp only [hq, if_true]; rw [State.endRead_none_asTaken]; exact ih _
      · simp only [hq, if_false]; exact ih t

theorem State.departActive_asTaken (s x : State) (ch : Chan) (st : LinkState) :
    (s.asTaken x).departActive ch st = (s.departActive ch st).asTaken x := by
  unfold State.departActive
  dsimp only
  have hl : (((s.asTaken x).setLinkState ch st).modLink ch Link.dropCredits).modTx ch Transmitter.withdraw =
    (((s.setLinkState ch st).modLink ch Link.dropCredits).modTx ch Transmitter.withdraw).asTaken x := rfl
  rw [hl, State.abandonRequests_none_asTaken, State.abortRunningOn_asTaken]

theorem State.enterSyncing_asTaken (s x : State) (ch : Chan) : (s.asTaken x).enterSyncing ch = (s.enterSyncing ch).asTaken x := by
  unfold State.enterSyncing
  have ha : (s.asTaken x).linkActive ch = s.linkActive ch := rfl
  have hl : (s.asTaken x).setLinkState ch .syncing = (s.setLinkState ch .syncing).asTaken x := rfl
  rw [ha, hl, State.departActive_asTaken, State.abortRunningOn_asTaken]
  split <;> rfl

theorem State.goDown_asTaken (s x : State) (ch : Chan) : (s.asTaken x).goDown ch = (s.goDown ch).asTaken x := by
  unfold State.goDown
  dsimp only
  have hl : (((s.asTaken x).setLinkState ch .down).modLink ch (fun l =>
      { l.dropCredits with attempts := 0, attemptTimer := none })).modTx ch (fun _ => Transmitter.cut) =
    ((((s.setLinkState ch .down).modLink ch (fun l =>
      { l.dropCredits with attempts := 0, attemptTimer := none })).modTx ch (fun _ => Transmitter.cut))).asTaken x := rfl
  rw [hl, State.abandonRequests_none_asTaken, State.abortRunningOn_asTaken]

theorem State.softReset_asTaken (s x : State) : (s.asTaken x).softReset = s.softReset.asTaken x := by
  unfold State.softReset
  dsimp only
  have he : (s.asTaken x).emptyIntake.emptyVerify = s.emptyIntake.emptyVerify.asTaken x := rfl
  have hs : (s.emptyIntake.emptyVerify.asTaken x).setScrubs ((s.emptyIntake.emptyVerify.asTaken x).scrubs.map Scrub.softReset) =
    (s.emptyIntake.emptyVerify.setScrubs (s.emptyIntake.emptyVerify.scrubs.map Scrub.softReset)).asTaken x := rfl
  rw [he, hs]
  generalize s.emptyIntake.emptyVerify.setScrubs (s.emptyIntake.emptyVerify.scrubs.map Scrub.softReset) = t
  induction (List.finRange 8) generalizing t with
  | nil => rfl
  | cons ch rest ih =>
    simp only [List.foldl_cons]
    have hr : (t.asTaken x).resyncAtReset ch = (t.resyncAtReset ch).asTaken x := by
      unfold State.resyncAtReset
      have hl : (t.asTaken x).link ch = t.link ch := rfl
      rw [hl, State.enterSyncing_asTaken]
      split <;> rfl
    rw [hr]; exact ih _

end Sys2Proof.Machine
end

