-- ==== Sys2Proof/Laws/Words.lean ====
section
/-! SUPPORT. What a word made of fields holds: bit by bit and field by field (R185, R188). -/

namespace Sys2Proof.Machine

/-- The bits of one field of a word. -/
theorem placed_getLsbD (hi lo v n : Nat) :
    (placed hi lo v).getLsbD n = (decide (n < 32) && decide (lo ≤ n) && decide (n ≤ hi) && v.testBit (n - lo)) := by
  simp only [placed, BitVec.getLsbD_ofNat, Nat.testBit_mul_two_pow, Nat.testBit_mod_two_pow]
  by_cases h : lo ≤ n
  · by_cases h' : n ≤ hi
    · have : n - lo < hi + 1 - lo := by omega
      simp [h, h', this]
    · have : ¬n - lo < hi + 1 - lo := by omega
      simp [h', this]
  · simp [h]

/-- The bits of a word made of fields: those of every field. -/
theorem pack_getLsbD (fs : List (Nat × Nat × Nat)) (n : Nat) :
    (pack fs).getLsbD n = fs.any (fun f => (placed f.1 f.2.1 f.2.2).getLsbD n) := by
  have : ∀ (gs : List (Nat × Nat × Nat)) (w : Word),
      (gs.foldl (fun w f => w ||| placed f.1 f.2.1 f.2.2) w).getLsbD n =
        (w.getLsbD n || gs.any (fun f => (placed f.1 f.2.1 f.2.2).getLsbD n)) := by
    intro gs
    induction gs with
    | nil => simp
    | cons g gs ih => intro w; simp [ih, Bool.or_assoc]
  simp [pack, this]

/-- The bits of the number that a field of a word holds. -/
theorem field_testBit (w : Word) (hi lo n : Nat) : (field w hi lo).testBit n = (decide (n < hi + 1 - lo) && w.getLsbD (lo + n)) := by
  simp [field, Nat.testBit_mod_two_pow, Nat.testBit_div_two_pow, BitVec.getLsbD, Nat.add_comm]

/-- Bits `lo` to `hi` of a word do not meet a field. -/
def Apart (hi lo : Nat) (f : Nat × Nat × Nat) : Prop := hi < f.2.1 ∨ f.1 < lo

/-- A field of a word holds its number, cut to its width, where no other field of the word meets it. -/
theorem field_pack {before after : List (Nat × Nat × Nat)} {hi lo v : Nat} (hw : hi < 32)
    (hb : ∀ f ∈ before, Apart hi lo f) (ha : ∀ f ∈ after, Apart hi lo f) :
    field (pack (before ++ (hi, lo, v) :: after)) hi lo = v % 2 ^ (hi + 1 - lo) := by
  apply Nat.eq_of_testBit_eq
  intro n
  rw [field_testBit, pack_getLsbD, Nat.testBit_mod_two_pow]
  by_cases h : n < hi + 1 - lo
  · have off : ∀ gs : List (Nat × Nat × Nat), (∀ f ∈ gs, Apart hi lo f) →
        gs.any (fun f => (placed f.1 f.2.1 f.2.2).getLsbD (lo + n)) = false := by
      intro gs hg
      rw [List.any_eq_false]
      intro f hf
      rw [placed_getLsbD]
      rcases hg f hf with h' | h' <;> simp <;> omega
    have h1 : lo + n < 32 := by omega
    have h2 : lo + n ≤ hi := by omega
    rw [List.any_append, List.any_cons, off _ hb, off _ ha, placed_getLsbD]
    simp [h, h1, h2]
  · simp [h]

/-- The same for the field at a place of the list. -/
theorem field_pack_at {fs : List (Nat × Nat × Nat)} (k : Nat) {hi lo v : Nat} (hk : fs[k]? = some (hi, lo, v)) (hw : hi < 32)
    (hd : ∀ f ∈ fs.eraseIdx k, Apart hi lo f) : field (pack fs) hi lo = v % 2 ^ (hi + 1 - lo) := by
  obtain ⟨hl, hv⟩ := List.getElem?_eq_some_iff.mp hk
  have hs : fs = fs.take k ++ (hi, lo, v) :: fs.drop (k + 1) := by
    rw [← hv, ← List.drop_eq_getElem_cons hl, List.take_append_drop]
  rw [List.eraseIdx_eq_take_drop_succ] at hd
  rw [hs]
  exact field_pack hw (fun f hf => hd f (List.mem_append_left _ hf)) (fun f hf => hd f (List.mem_append_right _ hf))

/-- A bit of a word is the field of that bit alone. -/
theorem getLsbD_eq_field (w : Word) (n : Nat) : w.getLsbD n = (field w n n).testBit 0 := by
  rw [field_testBit]; simp

/-- The truth value at a place of the list is the bit that it names. -/
theorem bit_pack_at {fs : List (Nat × Nat × Nat)} (k : Nat) {n : Nat} {b : Bool} (hk : fs[k]? = some (flagBit n b)) (hw : n < 32)
    (hd : ∀ f ∈ fs.eraseIdx k, Apart n n f) : (pack fs).getLsbD n = b := by
  rw [getLsbD_eq_field, field_pack_at k hk hw hd]
  cases b <;> simp

/-- Bits of a word that no field meets are 0. -/
theorem field_pack_unnamed {fs : List (Nat × Nat × Nat)} {hi lo : Nat} (h : ∀ f ∈ fs, Apart hi lo f) : field (pack fs) hi lo = 0 := by
  apply Nat.eq_of_testBit_eq
  intro n
  rw [field_testBit, pack_getLsbD, Nat.zero_testBit]
  by_cases hn : n < hi + 1 - lo
  · simp only [hn, decide_true, Bool.true_and, List.any_eq_false]
    intro f hf
    rw [placed_getLsbD]
    rcases h f hf with h' | h' <;> simp <;> omega
  · simp [hn]

/-- A bit that no field meets is 0. -/
theorem bit_pack_unnamed {fs : List (Nat × Nat × Nat)} {n : Nat} (h : ∀ f ∈ fs, Apart n n f) : (pack fs).getLsbD n = false := by
  rw [getLsbD_eq_field, field_pack_unnamed h]; simp

end Sys2Proof.Machine
end

