-- ==== Sys2Proof/Tests/Slice0.lean ====
section
/-! SUPPORT. Tests. First the smoke tests of the well-formedness checks, then written-out frames, then one-step tests whose expected values
come from the manual, then one witness for each statement with hypotheses: concrete states and operands that meet them together, clause by
clause, at the ends of the ranges. -/

namespace Sys2Proof.Tests
open Sys2Proof.Machine

/- One theorem after another: side by side they hold too many threads for the memory limit. -/
set_option Elab.async false

/-! ### Well-formedness -/

/-- R185: index 3 is the COMMAND register, so a write to it is no ignored write. -/
theorem test_wellFormed_refuses_write_with_behaviour : (Instr.registerWriteIgnored .system 3 0).wellFormed = false := by decide

/-- R189: kind 1 is ERROR, so it is no unknown kind. -/
theorem test_wellFormed_refuses_known_kind : (Instr.unknownKindFrame 0 0 1).wellFormed = false := by decide

theorem test_wellFormed_admits : (Instr.registerWriteIgnored .service 63 0).wellFormed = true ∧
    (Instr.unknownKindFrame 7 255 6).wellFormed = true := by decide

theorem test_exec_refuses_ill_formed : exec (.unknownKindFrame 0 0 5) State.reset = .refused .illFormed := rfl

/-! ### Frames written out byte by byte, with check values worked out by hand from x⁸ + x² + x + 1 (R102, R189) -/

theorem test_sync_frame : Frame.arrival ⟨[0x05, 0x00, 0x00, 0x00, 0x00, 0x00, 0x00, 0xAA], rfl⟩ 3 = .sync 3 0 := by decide +kernel

theorem test_hold_frame : Frame.arrival ⟨[0x03, 0x01, 0x00, 0x00, 0x00, 0x00, 0x00, 0x4F], rfl⟩ 7 = .hold 7 1 := by decide +kernel

theorem test_credit_frame : (DownFrame.bytes (.credit 6)).cells = [0x09, 0x00, 0xC0, 0x00, 0x00, 0x00, 0x00, 0x6A] := by decide +kernel

theorem test_sync_request_frame :
    (DownFrame.bytes .syncRequest).cells = [0x0B, 0x00, 0x00, 0x00, 0x00, 0x00, 0x00, 0x8C] := by decide +kernel

/-- Tag 3, number 255, kind VERIFY, rank 2, bank 17, row 262143. -/
theorem test_scrub_request_frame : (DownFrame.bytes (.scrubRequest 3 255 .verify 2 17 262143)).cells =
    [0x0A, 0x00, 0xFF, 0xF4, 0x7F, 0xFF, 0xF0, 0x18] := by decide +kernel

/-! ### One step -/

/-- What a command leaves, seen through `f`. -/
def seen {α : Type} (c : Instr) (s : State) (f : State → α) : Option α :=
  match exec c s with
  | .next t => some (f t)
  | .fault _ => none
  | .refused _ => none

/-- A state with a command PENDING in the mailbox of a port. -/
def cmd (s : State) (p : Port) (n : Nat) (ps : List Word) : State :=
  s.setMail p { s.mail p with state := .pending, command := num n, params := page ps }

/-- A state with the link of channel 0 ACTIVE. -/
def up : State := State.reset.modLink 0 (fun l => { l with state := .active, outstanding := 6 })

/-- A report at rank 1, bank 2, row 5, column 9. -/
def report : ErrorReport := ⟨.bit, .demand, 1, 2, 5, 9⟩

def record : CeRecord := ⟨⟨0, 1, 2, 5, 9⟩, .bit, .demand, 0⟩

/-- The entry that `record` makes under ROW. -/
def entry : CetEntry := newEntry ⟨0, 1, 2, some 5, none⟩ record

/-- A state with an entry at an index of the CET. -/
def holding (s : State) (i : CetIdx) (e : CetEntry) : State := s.setEntry i (some e)

/-- A range of rows 4 to 7 of bank 2 of rank 1 of channel 0, in a state of the list. -/
def ranged (st : RetState) : RetEntry :=
  ⟨⟨0, 1, 2, 4, 7⟩, st, .host, none, 3, 0, if st = .confirmed then some 0 else none⟩

def listing (s : State) (i : RetIdx) (a : RetEntry) : State := s.setRetEntry i (some a)

/-- A record of the UEL. -/
def ueRecord (id : BitVec 8) (a : AckState) (w : Timer) : UeRecord := ⟨id, ⟨0, 1, 2, 5, 9⟩, .uncorrectable, .demand, false, 0, a, w⟩

def logging (s : State) (rs : List UeRecord) : State := s.setUel { s.uel with records := rs }

/-- The code and the first two result words of a mailbox. -/
def answer (p : Port) (s : State) : ResultCode × List Word := ((s.mail p).code, ((s.mail p).result.get 0).cells.take 2)

/-- R161: a COMMAND write in EMPTY makes the mailbox PENDING. -/
theorem test_commandWrite : seen (.commandWrite .system 67) State.reset (fun t => (t.sysMail.state, t.sysMail.command)) =
    some (.pending, 67) := by decide +kernel

/-- R161: in PENDING it sets the collision flag alone. -/
theorem test_commandWrite_collides : seen (.commandWrite .system 67) (cmd State.reset .system 2 [])
    (fun t => (t.sysMail.command, t.sysMail.collision)) = some (2, true) := by decide +kernel

/-- R162: a PARAM write in PENDING is ignored and sets the collision flag. -/
theorem test_paramWrite_collides : seen (.paramWrite .service 1 9) (cmd State.reset .service 2 [])
    (fun t => (t.svcMail.params.get 1, t.svcMail.collision)) = some (0, true) := by decide +kernel

/-- R180: only the flags named become clear. -/
theorem test_eventClearWrite : seen (.eventClearWrite .service 0x100) ((State.reset.setFlag .linkChange).setFlag .ueLogged)
    (fun t => t.events.flags) = some 4 := by decide +kernel

/-- R181: the Service port writes the ALERT mask, and position 17 names no flag. -/
theorem test_lineMaskWrite : seen (.lineMaskWrite .service 0x2FFFF) State.reset (fun t => (t.events.irqMask, t.events.alertMask)) =
    some (0, 0xFFFF) := by decide +kernel

/-- R123: 262145 rows are not allowed. -/
theorem test_configureChannel_bad_rows : seen .configureChannel (cmd State.reset .system 1 [0, 4, 32, 262145]) (answer .system) =
    some (.badParam, [0, 0]) := by decide +kernel

/-- R109, R110: the link enters SYNCING, state 1 is returned and a SYNC_REQUEST waits. -/
theorem test_linkEnable : seen .linkEnable (cmd State.reset .system 2 [0]) (fun t => (answer .system t, (t.txs.get 0).waiting)) =
    some ((.ok, [1, 0]), [.syncRequest]) := by decide +kernel

/-- R121: the number of reports discarded is returned. -/
theorem test_linkDisable : seen .linkDisable (cmd (up.setQueues (up.queues.set 0 [.error report, .error report])) .service 3 [0])
    (answer .service) = some (.ok, [2, 0]) := by decide +kernel

/-- R169: threshold 0, at position 1, is refused, and granularity is not applied. -/
theorem test_setPolicy : seen .setPolicy (cmd State.reset .system 5 [3, 2]) (fun t => (answer .system t, t.cet.policy.granularity)) =
    some ((.badParam, [0, 1]), .row) := by decide +kernel

/-- R35: the index and the generation count. -/
theorem test_findCet : seen .findCet (cmd (holding State.reset 77 entry) .system 17 [0x00090210, 5]) (answer .system) =
    some (.ok, [77, 0]) := by decide +kernel

/-- R35: under BANK a location whose row is beyond the channel's rows matches no entry, though its key is that of an entry. -/
theorem test_findCet_outside_geometry : seen .findCet
    (cmd (((holding State.reset 77 { entry with key := ⟨0, 1, 2, none, none⟩ }).modLink 0 (fun l => { l with geometry := ⟨4, 32, 5⟩ })).setCet
      { (holding State.reset 77 { entry with key := ⟨0, 1, 2, none, none⟩ }).cet with
        policy := { State.reset.cet.policy with granularity := .bank } }) .system 17 [0x00090210, 5]) (answer .system) =
    some (.notFound, [0, 0]) := by decide +kernel

/-- R37: the number freed and the generation count after it. -/
theorem test_clearCetAll : seen .clearCetAll (cmd (holding State.reset 127 entry) .system 19 []) (answer .system) =
    some (.ok, [1, 1]) := by decide +kernel

/-- R150: an index above 127 is refused. -/
theorem test_startVerify_index : seen .startVerify (cmd State.reset .system 22 [128]) (answer .system) =
    some (.badParam, [0, 0]) := by decide +kernel

/-- R54, R59: the command stays RUNNING and its purge begins at index 0. -/
theorem test_addRetire : seen .addRetire (cmd State.reset .system 34 [0x210, 4, 7]) (fun t => (t.sysMail.state, t.engine.purge)) =
    some (.running, some ⟨0, 0, 0⟩) := by decide +kernel

/-- R57: the suppressed count is returned and the entry is free. -/
theorem test_removeRetire : seen .removeRetire (cmd (listing State.reset 31 (ranged .confirmed)) .service 37 [31])
    (fun t => (answer .service t, t.retired 31)) = some ((.ok, [3, 0]), none) := by decide +kernel

/-- R76: the Service port may not acknowledge an OPEN record. -/
theorem test_ackUe_open : seen .ackUe (cmd (logging State.reset [ueRecord 7 .opened none]) .service 49 [7]) (answer .service) =
    some (.notPermitted, [0, 0]) := by decide +kernel

/-- R77: the id, the former state and the number then held. -/
theorem test_ackUe_handed_over : seen .ackUe
    (cmd (logging State.reset [ueRecord 7 .handedOver none, ueRecord 7 .opened none]) .service 49 [7])
    (fun t => (answer .service t, t.uel.records)) = some ((.ok, [7, 1]), [ueRecord 7 .opened none]) := by decide +kernel

/-- R143: a START under a hold makes the patrol HELD with a step due. -/
theorem test_scrubStart_held : seen .scrubStart
    (cmd (up.modScrub 0 (fun c => { c with holdFlag := true })) .system 64 [0, 1])
    (fun t => ((t.scrub 0).patrol, (t.scrub 0).mode, (t.scrub 0).stepDue)) = some (.held, .singlePass, true) := by decide +kernel

/-- R144: IMMEDIATE makes a DRAINING patrol HELD. -/
theorem test_setHoldPolicy : seen .setHoldPolicy
    (cmd (up.modScrub 0 (fun c => { c with holdFlag := true, patrol := .draining, cursor := ⟨0, 0, 5⟩ })) .system 64 [0x400, 0, 16, 0])
    (fun t => (t.scrub 0).patrol) = some .held := by decide +kernel

/-- R172: BOTH (2) becomes SYSTEM_ONLY (0). -/
theorem test_setAuthority : seen .setAuthority (cmd State.reset .service 80 [0]) (answer .service) = some (.ok, [2, 0]) := by
  decide +kernel

/-- R166: CLEAR_FATAL from the System port. -/
theorem test_clearFatal_system : seen .clearFatal (cmd State.reset .system 82 []) (answer .system) =
    some (.notPermitted, [0, 0]) := by decide +kernel

/-- R60, R61: the visit of index 127 frees the entry inside the range and completes the command with the number purged. -/
theorem test_purgeVisit_last : seen .purgeVisit
    ((holding (listing (State.reset.setSysMail { State.reset.sysMail with state := .running }) 2 (ranged .confirmed)) 127 entry).setEngine
      { State.reset.engine with purge := some ⟨2, 127, 4⟩ })
    (fun t => (answer .system t, t.entry 127, t.engine.purge)) = some ((.ok, [2, 5]), none, none) := by decide +kernel

/-- R115, R117: a gap of three frames is added to the lost counter, and the report joins the queue for one credit. -/
theorem test_error_gap : seen (.error 0 3 report) up
    (fun t => ((t.link 0).counters.lost, (t.link 0).expected, (t.link 0).outstanding, t.queues.get 0, t.flagged .reportsLost)) =
      some (3, 4, 5, [.error report], true) := by decide +kernel

/-- R114: the fourth failing frame in a row fails the link. -/
theorem test_frameCheckFailure_fourth : seen (.frameCheckFailure 0) (up.modLink 0 (fun l => { l with checkFailures := 3 }))
    (fun t => ((t.link 0).state, (t.link 0).outstanding, t.flagged .linkChange)) = some (.failed, 0, true) := by decide +kernel

/-- R112: six credits are granted on an empty queue and the next number is expected. -/
theorem test_sync : seen (.sync 0 255)
    (State.reset.modLink 0 (fun l => { l with state := .syncing, attempts := 1, attemptTimer := some 20 }))
    (fun t => ((t.link 0).state, (t.link 0).expected, (t.txs.get 0).waiting)) = some (.active, 0, [.credit 6]) := by decide +kernel

/-- R111: no fourth request is sent. -/
theorem test_syncAttemptExpiry_third : seen (.syncAttemptExpiry 0)
    (State.reset.modLink 0 (fun l => { l with state := .syncing, attempts := 3, attemptTimer := some 0 }))
    (fun t => ((t.link 0).state, (t.link 0).attempts, (t.txs.get 0).waiting)) = some (.failed, 0, []) := by decide +kernel

/-- R138, R139: under SEGMENT a HOLD at row 17 of a segment size of 16 makes the patrol DRAINING. -/
theorem test_hold_segment : seen (.hold 0 0)
    (up.modScrub 0 (fun c => { c with patrol := .running, holdPolicy := .segment, cursor := ⟨0, 0, 17⟩ }))
    (fun t => (t.scrub 0).patrol) = some .draining := by decide +kernel

/-- R129, R133: the row at the cursor is requested on tag 0, and the last row of a bank is followed by row 0 of the next. -/
theorem test_issueEvent : seen (.issueEvent 0)
    (up.modScrub 0 (fun c => { c with patrol := .running, stepDue := true, cursor := ⟨0, 0, 262143⟩ }))
    (fun t => ((t.txs.get 0).waiting, (t.scrub 0).cursor, (t.scrub 0).pacingTimer)) =
      some ([.scrubRequest 0 0 .patrol 0 0 262143], ⟨0, 1, 0⟩, some 100) := by decide +kernel

/-- R137: the third timeout in a row fails the link. -/
theorem test_replyTimeout_third : seen (.replyTimeout 0 3)
    (up.modScrub 0 (fun c => { c with tags := c.tags.set 3 (some ⟨9, .patrol, 0, 0, 0, 0⟩), timeoutRun := 2 }))
    (fun t => ((t.link 0).state, (t.scrub 0).counters.timeouts, (t.scrub 0).timeoutRun)) = some (.failed, 1, 0) := by decide +kernel

/-- R24, R93: a corrected report allocates CET index 0. -/
theorem test_intakeTake : seen .intakeTake (up.setQueues (up.queues.set 0 [.error report]))
    (fun t => (t.entry 0, t.queues.get 0, t.intake.lastServed)) = some (some entry, [], .channel 0) := by decide +kernel

/-- R29: an entry of count 1 leaks away, and the timer starts again with 60 s. -/
theorem test_leakExpiry : seen .leakExpiry
    ((holding State.reset 0 entry).setCet { (holding State.reset 0 entry).cet with leakTimer := some 0 })
    (fun t => (t.entry 0, t.cet.generation, t.cet.leakTimer)) = some (none, 1, some 60000) := by decide +kernel

/-- R74: the handed-over record waits the service window of 2000 ms. -/
theorem test_systemWindowExpiry : seen (.systemWindowExpiry 0) (logging State.reset [ueRecord 1 .opened (some 0)])
    (fun t => t.uel.records) = some [ueRecord 1 .handedOver (some 2000)] := by decide +kernel

/-- R75: fatal-on-escalation is on after Full reset. -/
theorem test_serviceWindowExpiry : seen (.serviceWindowExpiry 0) (logging State.reset [ueRecord 1 .handedOver (some 0)])
    (fun t => (t.uel.records, t.fatalAsserted)) = some ([ueRecord 1 .escalated none], true) := by decide +kernel

/-- R95: a reply to an IDLE tag is stale. -/
theorem test_intakeTake_stale : seen .intakeTake (up.setQueues (up.queues.set 0 [.reply ⟨1, 0, .clean, .bit, 0, 0⟩]))
    (fun t => (t.classifier.get 0).stale) = some 1 := by decide +kernel

/-! ### Witnesses -/

theorem cmd_takes (s : State) (p : Port) (n : Nat) (ps : List Word) (h : s.rst = false)
    (ho : (s.mail (Port.other p)).state = .empty) : (cmd s p n ps).Takes p n := by
  cases p <;> refine ⟨⟨h, rfl, ?_, ?_⟩, rfl⟩ <;> simp_all [cmd, State.mail, State.setMail, Port.other]

theorem reset_takes (p : Port) (n : Nat) (ps : List Word) : (cmd State.reset p n ps).Takes p n :=
  cmd_takes _ _ _ _ rfl (by cases p <;> rfl)

theorem up_takes (p : Port) (n : Nat) (ps : List Word) : (cmd up p n ps).Takes p n := cmd_takes _ _ _ _ rfl (by cases p <;> rfl)

theorem reset_entry (i : CetIdx) : State.reset.entry i = none := by
  simp [State.reset, State.held, Cet.held, State.entry]

theorem holding_entry (e : CetEntry) (i j : CetIdx) :
    (holding State.reset i e).entry j = if j = i then some e else none := by
  have := reset_entry j
  simp only [State.entry] at this
  simp only [holding, State.setEntry, State.entry, State.setCet_cet, Table.get_set]
  split
  · rfl
  · exact this

/-- A state with one entry holds it at its index alone. -/
theorem holding_only {e f : CetEntry} {i j : CetIdx} (h : (holding State.reset i e).entry j = some f) : j = i := by
  rw [holding_entry] at h
  split at h
  · assumption
  · cases h

theorem reset_retired (i : RetIdx) : State.reset.retired i = none := by
  simp [State.reset, State.held, RetireList.held, State.retired]

/-- The first statement has no hypothesis; of the second, both kinds of term exist. -/
theorem witness_EveryCommandCompletes : (Instr.leakExpiry).wellFormed = true ∧ (Instr.unknownKindFrame 0 0 5).wellFormed = false := by
  decide

theorem witness_HeldPartIgnoresCommands : (State.reset.setRst true).rst = true ∧ (Instr.sync 0 0).wellFormed = true ∧
    Instr.sync 0 0 ≠ .fullReset ∧ Instr.sync 0 0 ≠ .fullResetEnd := by decide

theorem witness_FullResetEndStartsLeak : (State.reset.setRst true).rst = true ∧ ∃ t, exec .fullReset State.reset = .next t :=
  ⟨rfl, _, rfl⟩

theorem witness_TicksLowerTimers : State.reset.rst = false ∧
    (100 ≤ (State.reset.setClock ⟨0, 100⟩).clock.ticks ∧ (State.reset.setClock ⟨0, 100⟩).rst = false) ∧
    ((State.reset.setClock ⟨0, 99⟩).clock.ticks < 100 ∧ (State.reset.setClock ⟨0, 99⟩).rst = false) := by decide

theorem witness_MailboxWrites : State.reset.rst = false ∧ (State.reset.mail .system).state = .empty ∧
    ((State.reset.setSysMail { State.reset.sysMail with state := .done }).mail .system).state = .done ∧
    ((cmd State.reset .system 1 []).mail .system).state = .pending ∧
    ((State.reset.setSysMail { State.reset.sysMail with state := .running }).mail .system).state = .running := by decide

theorem witness_ResultReadEmptiesDoneMailbox : State.reset.rst = false ∧ (State.reset.mail .service).page.val < 3 := by decide

theorem witness_FlagClearMasksAndLines : State.reset.rst = false ∧ 16 < 17 := by decide

/-- The indices 1, 10, 16 and 19 stand beside those that have a write behaviour. -/
theorem witness_PortAccesses : (∀ index : Fin 64, index = 1 ∨ index = 10 ∨ index = 16 ∨ index = 19 ∨ index = 63 →
    ¬(2 ≤ index.val ∧ index.val ≤ 9) ∧ index ≠ 17 ∧ index ≠ 18) ∧ (List.replicate 39 true).length < 40 ∧
    32 ≤ (List.replicate 32 true).length ∧ State.reset.rst = false ∧
    (let late : SystemCycle := ⟨true, false, [false, true], 10, 0⟩; late.read = true ∧ late.write = false ∧ true ∈ late.select) ∧
    (let early : SystemCycle := ⟨false, true, [true, false], 17, 1⟩; early.read = false ∧ early.write = true) ∧
    (let both : SystemCycle := ⟨true, true, [true], 10, 0⟩; both.read = both.write) := by decide

theorem witness_UpstreamFramesRoundTrip : (1 : Byte) ≠ (errorFrame report 0).get 7 ∧
    (frameOf 3 0 0).passes = true ∧ (frameOf 3 0 0).get 0 = 3 ∧ (frameOf 4 0 0).passes = true ∧ (frameOf 4 0 0).get 0 = 4 ∧
    (frameOf 5 0 0).passes = true ∧ (frameOf 5 0 0).get 0 = 5 ∧
    (frameOf 0 0 0).passes = true ∧ ¬(1 ≤ ((frameOf 0 0 0).get 0).toNat ∧ ((frameOf 0 0 0).get 0).toNat ≤ 5) ∧
    (frameOf 6 0 0).passes = true ∧ ¬(1 ≤ ((frameOf 6 0 0).get 0).toNat ∧ ((frameOf 6 0 0).get 0).toNat ≤ 5) := by decide +kernel

theorem witness_EngineRefusals :
    ((cmd State.reset .system 6 []).Chosen .system ∧ ((cmd State.reset .system 6 []).mail .system).command.toNat ∉ commandCodes) ∧
    ((cmd State.reset .system 64 [0x600]).Chosen .system ∧ ((cmd State.reset .system 64 [0x600]).mail .system).command = 64 ∧
      6 ≤ field ((cmd State.reset .system 64 [0x600]).param .system 0) 11 8) ∧
    ((cmd State.reset .system 80 []).Chosen .system ∧ ((cmd State.reset .system 80 []).mail .system).command = 80) ∧
    (let s := cmd (State.reset.setEngine { State.reset.engine with authority := .systemOnly }) .service 34 []
     s.Chosen .service ∧ s.engine.authority = .systemOnly ∧ (s.mail .service).command = 34) ∧
    (let s := cmd (State.reset.setEngine { State.reset.engine with authority := .serviceOnly }) .system 37 []
     s.Chosen .system ∧ s.engine.authority = .serviceOnly ∧ (s.mail .system).command = 37) :=
  ⟨⟨(reset_takes _ _ _).1, by decide⟩, ⟨(reset_takes _ _ _).1, rfl, by decide⟩, ⟨(reset_takes _ _ _).1, rfl⟩,
    ⟨(cmd_takes _ _ _ _ rfl rfl).1, rfl, rfl⟩, ⟨(cmd_takes _ _ _ _ rfl rfl).1, rfl, rfl⟩⟩

theorem witness_NothingToTakeChangesNothing : (State.reset.sysMail.state ≠ .pending ∧ State.reset.svcMail.state ≠ .pending) ∧
    (State.reset.setSysMail { State.reset.sysMail with state := .running }).sysMail.state = .running ∧
    (State.reset.link 7).state ≠ .active ∧
    (let s := up.modScrub 0 (fun c => { c with tags := Table.fill 4 (some ⟨0, .patrol, 0, 0, 0, 9⟩) })
     (s.link 0).state = .active ∧ ∀ tag, (s.scrub 0).tags.get tag ≠ none) ∧
    (up.verify.jobs.head? = none ∧ (up.scrub 0).patrol = .stopped) ∧ State.reset.engine.purge = none := by decide

theorem witness_ServiceOnlySettings :
    ((cmd State.reset .service 80 [2]).Takes .service 80 ∧ (cmd State.reset .service 80 [2]).param .service 0 = num Authority.both.code) ∧
    ((cmd State.reset .service 80 [3]).Takes .service 80 ∧ 3 ≤ ((cmd State.reset .service 80 [3]).param .service 0).toNat) ∧
    ((cmd State.reset .service 81 [1]).Takes .service 81 ∧ (cmd State.reset .service 81 [1]).param .service 0 = num true.toNat) ∧
    ((cmd State.reset .service 81 [2]).Takes .service 81 ∧ 2 ≤ ((cmd State.reset .service 81 [2]).param .service 0).toNat) ∧
    (cmd State.reset .service 82 []).Takes .service 82 :=
  ⟨⟨reset_takes _ _ _, rfl⟩, ⟨reset_takes _ _ _, by decide⟩, ⟨reset_takes _ _ _, rfl⟩, ⟨reset_takes _ _ _, by decide⟩,
    reset_takes _ _ _⟩

theorem witness_CountersAndStatus :
    ((cmd State.reset .system 65 [7, 0]).Takes .system 65 ∧ (cmd State.reset .system 65 [7, 0]).param .system 0 = num (7 : Chan).val ∧
      (cmd State.reset .system 65 [7, 0]).param .system 1 = 0) ∧
    ((cmd State.reset .system 65 [7, 1]).Takes .system 65 ∧ (cmd State.reset .system 65 [7, 1]).param .system 1 = 1) ∧
    ((cmd State.reset .system 65 [7, 2]).Takes .system 65 ∧ 2 ≤ ((cmd State.reset .system 65 [7, 2]).param .system 1).toNat) ∧
    ((cmd State.reset .system 65 [8]).Takes .system 65 ∧ 8 ≤ ((cmd State.reset .system 65 [8]).param .system 0).toNat) ∧
    (cmd State.reset .system 67 []).Takes .system 67 ∧
    (State.reset.setJobs [newJob 127 7 State.reset.verify]).verify.jobs.head? = some (newJob 127 7 State.reset.verify) ∧
    (State.reset.noteAbort .retired 127).verify.lastAbort = some (.retired, 127) :=
  ⟨⟨reset_takes _ _ _, rfl, rfl⟩, ⟨reset_takes _ _ _, rfl⟩, ⟨reset_takes _ _ _, by decide⟩, ⟨reset_takes _ _ _, by decide⟩,
    reset_takes _ _ _, rfl, rfl⟩

theorem witness_InjectReportFillsSlot :
    (let s := cmd State.reset .system 66 [0x03FF1F37, 262143, 3]
     s.Takes .system 66 ∧ LocWords (s.param .system 0) (s.param .system 1) ⟨7, 3, 31, 262143, 1023⟩ ∧
       s.param .system 2 = num (errClassBits .poison) ∧ s.intake.slot = none) ∧
    (let s := cmd (State.reset.setIntake { State.reset.intake with slot := some ⟨⟨0, 0, 0, 0, 0⟩, .bit⟩ }) .system 66 [0, 0, 0]
     s.Takes .system 66 ∧ LocWords (s.param .system 0) (s.param .system 1) ⟨0, 0, 0, 0, 0⟩ ∧
       s.param .system 2 = num (errClassBits .bit) ∧ s.intake.slot ≠ none) ∧
    (let s := cmd State.reset .system 66 [0, 0, 4]; s.Takes .system 66 ∧ 4 ≤ (s.param .system 2).toNat) ∧
    (let s := cmd State.reset .system 66 [8, 0, 0]; s.Takes .system 66 ∧ BeyondRange (s.param .system 0) (s.param .system 1)) ∧
    (let s := cmd State.reset .system 66 [0, 262144, 0]; s.Takes .system 66 ∧ BeyondRange (s.param .system 0) (s.param .system 1)) :=
  ⟨⟨reset_takes _ _ _, by refine ⟨?_, ?_, ?_, ?_, ?_⟩ <;> decide, rfl, rfl⟩,
    ⟨cmd_takes _ _ _ _ rfl rfl, by refine ⟨?_, ?_, ?_, ?_, ?_⟩ <;> decide, rfl, by decide⟩,
    ⟨reset_takes _ _ _, by decide⟩, ⟨reset_takes _ _ _, Or.inl (by decide)⟩,
    ⟨reset_takes _ _ _, Or.inr (Or.inr (Or.inr (Or.inr (by decide))))⟩⟩

theorem witness_SetPolicyAllOrNothing :
    (3 = (((page [1, 3]).get 1).extractLsb' 0 2).toNat ∧ granularityOfCode (((page [1, 2]).get 1).extractLsb' 0 2).toNat = some .bank) ∧
    (let s := cmd State.reset .system 5 [0x4000]; s.Takes .system 5 ∧ 2 ^ 14 ≤ (s.param .system 0).toNat) ∧
    (let s := cmd State.reset .system 5 [0x2000, 0, 0, 0, 0, 0x2000000]
     s.Takes .system 5 ∧ (s.param .system 0).toNat < 2 ^ 14 ∧ (s.param .system 0).getLsbD 13 = true ∧
       (policyWords (s.mail .system).params).refuses s 13 = some .badParam ∧
       ∀ m, m < 13 → (s.param .system 0).getLsbD m = true → (policyWords (s.mail .system).params).refuses s m = none) ∧
    (let s := cmd State.reset .system 5 [0x3FFF, 0xFF00, 0, 0x06000101, 0, 0]
     s.Takes .system 5 ∧ (s.param .system 0).toNat < 2 ^ 14 ∧
       ∀ n, n < 14 → (s.param .system 0).getLsbD n = true → (policyWords (s.mail .system).params).refuses s n = none) :=
  ⟨by decide, ⟨reset_takes _ _ _, by decide⟩, ⟨reset_takes _ _ _, by decide, by decide, by decide, by decide⟩,
    ⟨reset_takes _ _ _, by decide, by decide +kernel⟩⟩

theorem witness_ConfigureChannelInstallsGeometry :
    (let s := cmd State.reset .system 1 [8]; s.Takes .system 1 ∧ 8 ≤ (s.param .system 0).toNat) ∧
    (let s := cmd State.reset .system 1 [7, 5, 32, 1]
     s.Takes .system 1 ∧ s.param .system 0 = num (7 : Chan).val ∧ (Geometry.mk 5 32 1).allowed = false) ∧
    (let s := cmd up .system 1 [0, 4, 4, 262144]
     s.Takes .system 1 ∧ s.param .system 0 = num (0 : Chan).val ∧ (Geometry.mk 4 4 262144).allowed = true ∧ (s.link 0).state ≠ .down) ∧
    (let s := cmd (holding State.reset 9 entry) .system 1 [0, 1, 4, 1]
     s.Takes .system 1 ∧ (Geometry.mk 1 4 1).allowed = true ∧ (s.link 0).state = .down ∧
       ∃ i e, s.entry i = some e ∧ e.key.channel = 0 ∧ e.compatible ⟨1, 4, 1⟩ = false) ∧
    (let s := cmd State.reset .system 1 [0, 1, 4, 1]
     s.Takes .system 1 ∧ (Geometry.mk 1 4 1).allowed = true ∧ (s.link 0).state = .down ∧
       (∀ i e, s.entry i = some e → e.key.channel = 0 → e.compatible ⟨1, 4, 1⟩ = true) ∧
       ∀ i a, s.retired i = some a → a.range.channel = 0 → a.range.compatible (s.geometry 0) ⟨1, 4, 1⟩ = true) :=
  ⟨⟨reset_takes _ _ _, by decide⟩, ⟨reset_takes _ _ _, rfl, by decide⟩, ⟨up_takes _ _ _, rfl, by decide, by decide⟩,
    ⟨cmd_takes _ _ _ _ rfl rfl, by decide, rfl, 9, entry, by decide +kernel, rfl, by decide⟩,
    ⟨reset_takes _ _ _, by decide, rfl, fun i e h => absurd ((reset_entry i).symm.trans h) (by simp),
      fun i a h => absurd ((reset_retired i).symm.trans h) (by simp)⟩⟩

/-- A state with the link of channel 0 FAILED. -/
def failed : State := State.reset.modLink 0 (fun l => { l with state := .failed })

/-- A state with the link of channel 0 SYNCING in an attempt. -/
def syncing (n : Nat) (w : Timer) : State :=
  State.reset.modLink 0 (fun l => { l with state := .syncing, attempts := n, attemptTimer := w })

theorem witness_LinkEnableAndResync :
    (let s := cmd State.reset .system 2 [7]
     s.Takes .system 2 ∧ s.param .system 0 = num (7 : Chan).val ∧ (s.link 7).state = .down ∧
       ∀ j, s.verify.jobs.head? = some j → j.channel ≠ 7) ∧
    (let s := cmd failed .service 4 [0]
     s.Takes .service 4 ∧ s.param .service 0 = num (0 : Chan).val ∧ (s.link 0).state = .failed ∧
       ∀ j, s.verify.jobs.head? = some j → j.channel ≠ 0) ∧
    (let s := cmd up .service 4 [0]
     s.Takes .service 4 ∧ s.param .service 0 = num (0 : Chan).val ∧ (s.link 0).state = .active) :=
  ⟨⟨reset_takes _ _ _, rfl, rfl, fun j h => by cases h⟩, ⟨cmd_takes _ _ _ _ rfl rfl, rfl, rfl, fun j h => by cases h⟩,
    ⟨up_takes _ _ _, rfl, rfl⟩⟩

theorem witness_ChannelAndIndexRefusals :
    (let s := cmd State.reset .system 3 [8]; 8 ≤ (s.param .system 0).toNat ∧ s.Takes .system 3) ∧
    (let s := cmd up .system 2 [0]; s.param .system 0 = num (0 : Chan).val ∧ s.Takes .system 2 ∧ (s.link 0).state ≠ .down) ∧
    (let s := cmd (syncing 1 (some 9)) .system 4 [0]
     s.param .system 0 = num (0 : Chan).val ∧ s.Takes .system 4 ∧ (s.link 0).state = .syncing) ∧
    (let s := cmd State.reset .system 3 [7]; s.param .system 0 = num (7 : Chan).val ∧ s.Takes .system 3 ∧ (s.link 7).state = .down) ∧
    (let s := cmd State.reset .system 64 [0x508]; 8 ≤ field (s.param .system 0) 3 0 ∧ s.TakesAction .system 5) ∧
    (let s := cmd State.reset .system 37 [32]
     32 ≤ field (s.param .system 0) 15 0 ∧ s.engine.authority.admits .system = true ∧ s.Takes .system 37) :=
  ⟨⟨by decide, reset_takes _ _ _⟩, ⟨rfl, up_takes _ _ _, by decide⟩, ⟨rfl, cmd_takes _ _ _ _ rfl rfl, rfl⟩,
    ⟨rfl, reset_takes _ _ _, rfl⟩, ⟨by decide, reset_takes _ _ _, by decide⟩, ⟨by decide, rfl, reset_takes _ _ _⟩⟩

theorem witness_LinkDisableDiscards :
    (let s := cmd up .system 3 [0]; s.Takes .system 3 ∧ s.param .system 0 = num (0 : Chan).val ∧ (s.link 0).state ≠ .down) ∧
    (let s := cmd failed .system 3 [0]; s.Takes .system 3 ∧ s.param .system 0 = num (0 : Chan).val ∧ (s.link 0).state ≠ .down) :=
  ⟨⟨up_takes _ _ _, rfl, by decide⟩, ⟨cmd_takes _ _ _ _ rfl rfl, rfl, by decide⟩⟩

theorem witness_SyncStartsTheCount :
    ((syncing 1 (some 9)).rst = false ∧ ((syncing 1 (some 9)).link 0).state = .syncing ∧
      1 ≤ 6 - ((syncing 1 (some 9)).queues.get 0).length ∧ ∀ f ∈ ((syncing 1 (some 9)).txs.get 0).waiting, f = .syncRequest) ∧
    (let s := (syncing 1 (some 9)).setQueues (State.reset.queues.set 0 (List.replicate 6 (.error report)))
     (s.link 0).state = .syncing ∧ 6 - (s.queues.get 0).length = 0) ∧
    (up.rst = false ∧ (up.link 0).state = .active ∧ up.verify.records.get 0 = none) ∧
    (let s := (up.modScrub 0 (fun c => { c with tags := c.tags.set 3 (some ⟨9, .verify, 0, 0, 0, 5⟩) })).setRecord 0 (some ⟨3, 9, true⟩)
     (s.link 0).state = .active ∧ (s.scrub 0).tags.get 3 = some ⟨9, .verify, 0, 0, 0, 5⟩ ∧
       s.verify.records.get 0 = some ⟨3, 9, true⟩) ∧ up.RecordLaw := by
  refine ⟨by decide, by decide, by decide, by decide, ?_⟩
  intro ch tag number
  have h1 : ∀ (ch : Chan) (tag : Tag), (up.scrub ch).tags.get tag = none := by decide
  have h2 : ∀ ch : Chan, up.verify.records.get ch = none := by decide
  simp [h1, h2]

/-- Distances 0, 127, 128 and 255, with a credit and without one. -/
theorem witness_SequenceTestInActive : up.rst = false ∧ (up.link 0).state = .active ∧ up.passesSeq 0 0 ∧ up.passesSeq 0 127 ∧
    1 ≤ (up.link 0).outstanding ∧ ((up.modLink 0 (fun l => { l with outstanding := 0 })).link 0).outstanding = 0 ∧
    upstreamKind 6 = false ∧ (127 - (up.link 0).expected : BitVec 8).toNat ≤ 127 ∧
    128 ≤ (128 - (up.link 0).expected : BitVec 8).toNat ∧ 128 ≤ (255 - (up.link 0).expected : BitVec 8).toNat := by
  refine ⟨rfl, rfl, ?_, ?_, ?_⟩ <;> first | decide | (unfold State.passesSeq; decide)

theorem witness_ArrivalsOutsideActiveAndFailures : State.reset.rst = false ∧ upstreamKind 0 = false ∧
    (State.reset.link 7).state = .down ∧ ((syncing 1 (some 9)).link 0).state = .syncing ∧ (failed.link 0).state = .failed ∧
    (up.link 0).state = .active ∧ ((up.modLink 0 (fun l => { l with checkFailures := 2 })).link 0).checkFailures ≤ 2 ∧
    ((up.modLink 0 (fun l => { l with checkFailures := 3 })).link 0).checkFailures = 3 := by decide

theorem witness_SyncAttemptsThenFailure :
    (∀ n : Fin 4, (syncing n (some 0)).rst = false ∧ ((syncing n (some 0)).link 0).state = .syncing ∧
      ((syncing n (some 0)).link 0).attemptTimer = some 0 ∧ ((syncing n (some 0)).link 0).attempts = n) ∧
    ((syncing 1 (some 1)).link 0).attemptTimer ≠ some 0 := by decide

theorem witness_TransmitterSendsInOrder :
    (let s := up.modTx 0 (fun _ => ⟨[.credit 2, .syncRequest], none⟩)
     s.rst = false ∧ (s.link 0).state ≠ .down ∧ s.txs.get 0 = ⟨[.credit 2, .syncRequest], none⟩) ∧
    (State.reset.link 0).state = .down ∧ (up.txs.get 0).waiting = [] ∧
    (up.modTx 0 (fun _ => ⟨[], some (.credit 2)⟩)).txs.get 0 = ⟨[], some (.credit 2)⟩ := by decide

theorem witness_HoldAndResume : up.rst = false ∧ (up.link 0).state = .active ∧ up.passesSeq 0 127 ∧ (up.scrub 0).holdFlag = false ∧
    ((up.modScrub 0 (fun c => { c with holdFlag := true })).scrub 0).holdFlag = true := by
  refine ⟨rfl, rfl, ?_, ?_⟩ <;> first | decide | (unfold State.passesSeq; decide)

/-- A state with tag 3 of channel 0 BUSY with a request whose timer has run out. -/
def late (kind : RequestKind) (run : Nat) : State :=
  up.modScrub 0 (fun c => { c with tags := c.tags.set 3 (some ⟨9, kind, 0, 0, 0, 0⟩), timeoutRun := run })

theorem witness_ScrubContextExpiries :
    ((up.modScrub 0 (fun c => { c with ceilingTimer := some 0 })).scrub 0).ceilingTimer = some 0 ∧
    (up.scrub 0).ceilingTimer ≠ some 0 ∧ ((up.modScrub 0 (fun c => { c with pacingTimer := some 0 })).scrub 0).pacingTimer = some 0 ∧
    ((up.modScrub 0 (fun c => { c with pacingTimer := some 1 })).scrub 0).pacingTimer ≠ some 0 ∧
    (((late .patrol 1).scrub 0).tags.get 3 = some ⟨9, .patrol, 0, 0, 0, 0⟩ ∧ ((late .patrol 1).scrub 0).timeoutRun ≤ 1) ∧
    ((late .patrol 2).scrub 0).timeoutRun = 2 ∧
    (((late .verify 1).scrub 0).tags.get 3 = some ⟨9, .verify, 0, 0, 0, 0⟩ ∧ ((late .verify 1).scrub 0).timeoutRun ≤ 1) ∧
    (((late .verify 2).scrub 0).tags.get 3 = some ⟨9, .verify, 0, 0, 0, 0⟩ ∧ ((late .verify 2).scrub 0).timeoutRun = 2) ∧
    ((up.scrub 0).tags.get 3 = none) ∧ up.rst = false := by decide

theorem witness_ScrubControlActions :
    (let s := cmd up .system 64 [0, 1]
     field (s.param .system 0) 3 0 = (0 : Chan).val ∧ s.TakesAction .system 0 ∧ s.param .system 1 = num PatrolMode.singlePass.code ∧
       (s.scrub 0).patrol = .stopped) ∧
    (let s := cmd (up.modScrub 0 (fun c => { c with patrol := .running })) .system 64 [0, 0]
     s.TakesAction .system 0 ∧ s.param .system 1 = num PatrolMode.continuous.code ∧ (s.scrub 0).patrol ≠ .stopped) ∧
    (let s := cmd up .system 64 [0, 2]; s.TakesAction .system 0 ∧ 2 ≤ (s.param .system 1).toNat) ∧
    (let s := cmd up .system 64 [0x107]; field (s.param .system 0) 3 0 = (7 : Chan).val ∧ s.TakesAction .system 1) ∧
    (let s := cmd up .system 64 [0x200, 0x1F30, 262143]
     s.TakesAction .system 2 ∧ field (s.param .system 1) 7 4 = (3 : Rank).val ∧ field (s.param .system 1) 15 8 = (31 : Bank).val ∧
       field (s.param .system 2) 19 0 = (262143 : Row).val ∧ (s.geometry 0).admits 3 31 262143 = true ∧ (s.scrub 0).patrol = .stopped) ∧
    (let s := cmd (up.modScrub 0 (fun c => { c with patrol := .held })) .system 64 [0x200, 0, 0]
     s.TakesAction .system 2 ∧ (s.geometry 0).admits 0 0 0 = true ∧ (s.scrub 0).patrol ≠ .stopped) ∧
    (let s := cmd (up.modLink 0 (fun l => { l with geometry := ⟨1, 4, 1⟩ })) .system 64 [0x200, 0, 1]
     s.TakesAction .system 2 ∧ field (s.param .system 2) 19 0 = (1 : Row).val ∧ (s.geometry 0).admits 0 0 1 = false) ∧
    (let s := cmd up .system 64 [0x200, 0x40, 0]; s.TakesAction .system 2 ∧ 4 ≤ field (s.param .system 1) 7 4) ∧
    (cmd up .system 64 [0x300, 65535]).TakesAction .system 3 ∧ (cmd up .system 64 [0x400, 1, 64, 65535]).TakesAction .system 4 ∧
    (cmd up .system 64 [0x500, 255]).TakesAction .system 5 :=
  ⟨⟨by decide, ⟨up_takes _ _ _, by decide⟩, rfl, rfl⟩, ⟨⟨cmd_takes _ _ _ _ rfl rfl, by decide⟩, rfl, by decide⟩,
    ⟨⟨up_takes _ _ _, by decide⟩, by decide⟩, ⟨by decide, up_takes _ _ _, by decide⟩,
    ⟨⟨up_takes _ _ _, by decide⟩, by decide, by decide, by decide, by decide, rfl⟩,
    ⟨⟨cmd_takes _ _ _ _ rfl rfl, by decide⟩, by decide, by decide⟩, ⟨⟨cmd_takes _ _ _ _ rfl rfl, by decide⟩, by decide, by decide⟩,
    ⟨⟨up_takes _ _ _, by decide⟩, by decide⟩, ⟨up_takes _ _ _, by decide⟩, ⟨up_takes _ _ _, by decide⟩, ⟨up_takes _ _ _, by decide⟩⟩

theorem witness_CursorAdvancesInPassOrder : Geometry.default.allowed = true ∧ Geometry.default.admits 3 31 262143 = true ∧
    (Geometry.mk 1 4 1).allowed = true ∧ (Geometry.mk 1 4 1).admits 0 3 0 = true := by decide

/-- A state with a RUNNING patrol whose step is due at row 5 of bank 2 of rank 1, with tag 0 BUSY. -/
def stepping : State := up.modScrub 0 (fun c => { c with
  patrol := .running, stepDue := true, cursor := ⟨1, 2, 5⟩, tags := c.tags.set 0 (some ⟨9, .patrol, 0, 0, 0, 5⟩) })

theorem witness_PatrolStepVisitsCursorRow :
    (stepping.rst = false ∧ (stepping.link 0).state = .active ∧ (stepping.scrub 0).tags.get 1 = none ∧
      (∀ u, u < 1 → (stepping.scrub 0).tags.get u ≠ none) ∧ stepping.verifyReady 0 = none ∧ (stepping.scrub 0).patrol = .running ∧
      (stepping.scrub 0).stepDue = true ∧ stepping.lookup 0 1 2 5 = none) ∧
    ((listing stepping 31 (ranged .confirmed)).lookup 0 1 2 5).isSome = true ∧
    (listing stepping 31 (ranged .confirmed)).verifyReady 0 = none := by decide +kernel

/-- A job of the entry at index 3. -/
def job : Job := ⟨3, 0, some ⟨1, 2, 5⟩, 4, 3, 0, 0, 0, 0⟩

theorem witness_StartVerifyCreatesJob :
    (let s := cmd State.reset .system 22 [128]; s.Takes .system 22 ∧ 128 ≤ field (s.param .system 0) 15 0) ∧
    (let s := cmd State.reset .system 22 [127]
     s.Takes .system 22 ∧ field (s.param .system 0) 15 0 = (127 : CetIdx).val ∧ s.entry 127 = none) ∧
    (let s := cmd (holding State.reset 127 { entry with status := .queued }) .system 22 [127]
     s.Takes .system 22 ∧ s.entry 127 = some { entry with status := .queued } ∧ VerifyStatus.queued ≠ .idle) ∧
    (let s := cmd ((holding State.reset 127 entry).setJobs (List.replicate 8 job)) .system 22 [127]
     s.Takes .system 22 ∧ s.entry 127 = some entry ∧ entry.status = .idle ∧ 8 ≤ s.verify.jobs.length) ∧
    (let s := cmd ((holding State.reset 127 entry).setJobs (List.replicate 7 job)) .system 22 [127]
     s.Takes .system 22 ∧ s.entry 127 = some entry ∧ entry.status = .idle ∧ s.verify.jobs.length < 8 ∧ s.verify.jobs ≠ []) ∧
    (let s := cmd (holding up 0 entry) .system 22 [0]
     s.Takes .system 22 ∧ field (s.param .system 0) 15 0 = (0 : CetIdx).val ∧ s.entry 0 = some entry ∧ s.verify.jobs = [] ∧
       (s.link entry.key.channel).state = .active) ∧
    (let s := cmd (holding State.reset 0 entry) .system 22 [0]
     s.Takes .system 22 ∧ s.entry 0 = some entry ∧ s.verify.jobs = [] ∧ (s.link entry.key.channel).state ≠ .active) :=
  ⟨⟨reset_takes _ _ _, by decide⟩, ⟨reset_takes _ _ _, by decide, by decide +kernel⟩,
    ⟨cmd_takes _ _ _ _ rfl rfl, by decide +kernel, by decide⟩, ⟨cmd_takes _ _ _ _ rfl rfl, by decide +kernel, rfl, by decide⟩,
    ⟨cmd_takes _ _ _ _ rfl rfl, by decide +kernel, rfl, by decide, by decide⟩,
    ⟨cmd_takes _ _ _ _ rfl rfl, by decide, by decide +kernel, rfl, rfl⟩,
    ⟨cmd_takes _ _ _ _ rfl rfl, by decide +kernel, rfl, by decide⟩⟩

/-- A state with a RUNNING job of the entry at index 3. -/
def verifying : State := (holding up 3 { entry with status := .running }).setJobs [job]

theorem verifying_entry (i : CetIdx) : verifying.entry i = if i = 3 then some { entry with status := .running } else none :=
  holding_entry { entry with status := .running } 3 i

/-- The clauses of `Departed` on a RUNNING job of the channel and on a channel without one. -/
theorem witness_Departed : verifying.verify.jobs = job :: [] ∧ job.channel = 0 ∧ (verifying.link 0).state = .active ∧
    ∀ j, up.verify.jobs.head? = some j → j.channel ≠ 0 := by decide

theorem verifying_queueLaw (s : State) (he : s.entry = verifying.entry) (hv : s.verify = verifying.verify) (hl : s.link 0 = up.link 0) :
    s.QueueLaw := by
  refine ⟨by rw [hv]; decide, by rw [hv]; decide, ?_, ?_, ?_, ?_⟩
  · rw [hv, he]; intro j hj
    simp only [verifying, State.setJobs, State.setVerify_verify, List.mem_singleton] at hj
    subst hj
    exact ⟨_, verifying_entry 3, rfl⟩
  · rw [hv, he]; intro i e h
    rw [verifying_entry] at h
    split at h
    · rename_i hi; subst hi; cases h; decide
    · cases h
  · rw [hv]; intro j hj
    simp only [verifying, State.setJobs, State.setVerify_verify, List.head?_cons, Option.some.injEq] at hj
    subst hj
    exact ⟨by rw [show job.channel = 0 from rfl, hl]; decide, rfl⟩
  · rw [hv]; intro j hj; simp [verifying, State.setJobs] at hj

theorem witness_VerifyReadServedFirst :
    (verifying.rst = false ∧ (verifying.link 0).state = .active ∧ (verifying.scrub 0).tags.get 0 = none ∧
      (∀ u, u < 0 → (verifying.scrub 0).tags.get u ≠ none) ∧ verifying.verify.jobs = job :: [] ∧ job.channel = 0 ∧
      job.issued < job.reads ∧ verifying.verify.records.get 0 = none ∧ (verifying.scrub 0).holdFlag = false ∧
      job.location = some ⟨1, 2, 5⟩ ∧ verifying.lookup 0 1 2 5 = none) ∧
    ((listing verifying 0 (ranged .confirmed)).lookup 0 1 2 5).isSome = true ∧
    (listing verifying 0 (ranged .confirmed)).QueueLaw :=
  ⟨by decide +kernel, by decide +kernel, verifying_queueLaw _ rfl rfl rfl⟩

/-- A state in which the head job of entry 3 owns the read on tag 2 with number 7, and has counted three reads of four. -/
def reading (owned : Bool) (counted : Nat) : State :=
  (verifying.setJobs [{ job with issued := counted + 1, clean := counted }]).setRecord 0 (some ⟨2, 7, owned⟩)

theorem witness_VerifyReadsAreCounted :
    (∀ n : Fin 4, (reading true n).verify.jobs = { job with issued := n.val + 1, clean := n.val } :: [] ∧
      (reading true n).verify.records.get 0 = some ⟨2, 7, true⟩) ∧
    ({ job with issued := 3, clean := 2, errored := 1 } : Job).counted < 4 ∧
    4 ≤ ({ job with issued := 4, clean := 3, errored := 1 } : Job).counted ∧
    (reading false 0).verify.records.get 0 = some ⟨2, 7, false⟩ ∧
    job.cet ∉ ([] : List Job).map Job.cet ∧ (reading true 3).entry job.cet = some { entry with status := .running } := by
  decide +kernel

/-- A state with a report in the queue of channel 0, and one in the slot. -/
def queued (r : Report) : State := up.setQueues (up.queues.set 0 [r])

def injected (l : Loc) (c : ErrClass) : State := State.reset.setIntake { State.reset.intake with slot := some ⟨l, c⟩ }

theorem witness_TakeServesSourceInOrder :
    (State.reset.rst = false ∧ ∀ x, State.reset.nonEmpty x = false) ∧
    ((queued (.error report)).nonEmpty (.channel 0) = true ∧ (queued (.error report)).intake.mode = .rotating) ∧
    ((queued (.error report)).setIntake { up.intake with mode := .fixed }).intake.mode = .fixed ∧
    ((queued (.error report)).choose = some (.channel 0) ∧ (queued (.error report)).queues.get 0 = .error report :: [] ∧
      ((queued (.error report)).link 0).state = .active) ∧
    (let s := (queued (.error report)).setQueues (up.queues.set 0 [.error report, .error report])
     s.choose = some (.channel 0) ∧ (s.link 0).awaiting + 1 < s.batch) ∧
    (let s := failed.setQueues (up.queues.set 0 [.error report])
     s.choose = some (.channel 0) ∧ (s.link 0).state ≠ .active) := by
  refine ⟨⟨rfl, ?_⟩, by decide, by decide, by decide, by decide, by decide⟩
  intro x
  cases x with
  | channel c => revert c; decide
  | slot => rfl

theorem witness_ReportRoutes :
    (let s := injected ⟨0, 1, 2, 5, 9⟩ .symbol
     s.rst = false ∧ s.choose = some .slot ∧ s.intake.slot = some ⟨⟨0, 1, 2, 5, 9⟩, .symbol⟩ ∧
       (s.geometry 0).admits 1 2 5 = true ∧ s.lookup 0 1 2 5 = none) ∧
    (let s := (injected ⟨0, 1, 2, 5, 9⟩ .poison).modLink 0 (fun l => { l with geometry := ⟨1, 4, 1⟩ })
     s.choose = some .slot ∧ (s.geometry 0).admits 1 2 5 = false) ∧
    (let s := listing (injected ⟨0, 1, 2, 5, 9⟩ .bit) 31 (ranged .confirmed)
     s.choose = some .slot ∧ s.lookup 0 1 2 5 = some 31 ∧ s.retired 31 = some (ranged .confirmed)) ∧
    ((up.geometry 0).admits 1 2 5 = true ∧ report.cls = .bit ∧ up.lookup 0 1 2 5 = none) ∧
    ((listing up 31 (ranged .confirmed)).lookup 0 1 2 5 = some 31 ∧
      (listing up 31 (ranged .confirmed)).retired 31 = some (ranged .confirmed)) ∧
    (((up.modLink 0 (fun l => { l with geometry := ⟨1, 4, 1⟩ })).geometry 0).admits 1 2 5 = false) := by decide +kernel

/-- A state with tag 2 of channel 0 BUSY with request 7. -/
def asked (kind : RequestKind) : State :=
  up.modScrub 0 (fun c => { c with tags := c.tags.set 2 (some ⟨7, kind, 1, 2, 5, 20⟩) })

theorem witness_ScrubReplyRoutes :
    (∀ q, (up.scrub 0).tags.get 2 = some q → q.number ≠ 7) ∧
    (((asked .patrol).scrub 0).tags.get 2 = some ⟨7, .patrol, 1, 2, 5, 20⟩ ∧ (asked .patrol).lookup 0 1 2 5 = none) ∧
    (listing (asked .patrol) 0 (ranged .confirmed)).lookup 0 1 2 5 = some 0 ∧
    ((asked .verify).scrub 0).tags.get 2 = some ⟨7, .verify, 1, 2, 5, 20⟩ := by
  refine ⟨?_, by decide +kernel, by decide +kernel, by decide +kernel⟩
  have : (up.scrub 0).tags.get 2 = none := by decide
  intro q h; rw [this] at h; cases h

theorem witness_HitCountsInEntry :
    (let s := holding State.reset 127 { entry with count := 15 }
     s.entry 127 = some { entry with count := 15 } ∧ entry.key = s.cet.policy.granularity.reduce record.loc ∧
       (∀ j f, s.entry j = some f → f.key = entry.key → j = 127) ∧ s.cet.policy.autoVerify = false ∧
       s.cet.policy.proposeMode ≠ .onThreshold ∧ entry.state = .tracking ∧ s.cet.policy.threshold ≤ min (15 + 1) 65535) ∧
    min (14 + 1) 65535 < State.reset.cet.policy.threshold ∧
    (let s := holding State.reset 0 { entry with state := .overThreshold }
     s.entry 0 = some { entry with state := .overThreshold } ∧ entry.key = s.cet.policy.granularity.reduce record.loc ∧
       ∀ j f, s.entry j = some f → f.key = entry.key → j = 0) :=
  ⟨⟨by rw [holding_entry]; rfl, rfl, fun _ _ h _ => holding_only h, rfl, by decide, rfl, by decide⟩, by decide,
    by rw [holding_entry]; rfl, rfl, fun _ _ h _ => holding_only h⟩

theorem witness_MissAllocatesLowestFree :
    (let s := holding State.reset 0 { entry with key := { entry.key with row := some 6 } }
     (∀ j f, s.entry j = some f → f.key ≠ s.cet.policy.granularity.reduce record.loc) ∧ s.entry 1 = none ∧
       (∀ j, j < 1 → s.entry j ≠ none) ∧ 2 ≤ s.cet.policy.threshold) ∧
    (let s := State.reset.setCet { State.reset.cet with policy := { State.reset.cet.policy with threshold := 1 } }
     (∀ j f, s.entry j = some f → f.key ≠ s.cet.policy.granularity.reduce record.loc) ∧ s.entry 0 = none ∧
       (∀ j, j < 0 → s.entry j ≠ none) ∧ s.cet.policy.threshold ≤ 1) := by
  refine ⟨⟨?_, ?_, ?_, by decide⟩, fun j f h => absurd ((reset_entry j).symm.trans h) (by simp), reset_entry 0, by simp, by decide⟩
  · intro j f h
    rw [holding_entry] at h
    split at h
    · cases h; decide
    · cases h
  · rw [holding_entry]; rfl
  · intro j hj
    have : j = 0 := Fin.ext (by simpa [Fin.lt_def] using hj)
    rw [holding_entry, if_pos this]
    simp

/-- A state with a valid entry at every index. -/
def full (e : CetEntry) : State := State.reset.setCet { State.reset.cet with entries := Table.fill 128 (some e) }

theorem full_entry (e : CetEntry) (i : CetIdx) : (full e).entry i = some e := by simp [full, State.entry]

theorem witness_FullTableLooksForVictim :
    (let s := full { entry with key := { entry.key with row := some 6 } }
     (∀ j f, s.entry j = some f → f.key ≠ s.cet.policy.granularity.reduce record.loc) ∧ (∀ j, s.entry j ≠ none) ∧
       s.victim = some 0 ∧ 2 ≤ s.cet.policy.threshold) ∧
    (full { entry with pinned := true }).victim = none ∧
    (let s := full { entry with key := { entry.key with row := some 6 } }
     let t := s.setCet { s.cet with policy := { s.cet.policy with threshold := 1 } }
     t.victim = some 0 ∧ t.cet.policy.threshold ≤ 1 ∧ t.entry = s.entry) := by
  refine ⟨⟨?_, ?_, by decide +kernel, by decide⟩, by decide +kernel, by decide +kernel, by decide, rfl⟩
  · intro j f h; rw [full_entry] at h; cases h; decide
  · intro j h; rw [full_entry] at h; cases h

theorem listing_retired (a : RetEntry) (i j : RetIdx) :
    (listing State.reset i a).retired j = if j = i then some a else none := by
  have := reset_retired j
  simp only [State.retired] at this
  simp only [listing, State.setRetEntry, State.retired, State.setRetire_retire, Table.get_set]
  split
  · rfl
  · exact this

/-- A state with an entry of the CET and a full list of ranges elsewhere. -/
def crowded : State :=
  (holding State.reset 5 entry).setRetire { State.reset.retire with
    entries := Table.fill 32 (some { ranged .proposed with range := ⟨7, 0, 0, 0, 0⟩ }) }

theorem witness_ProposalAnswers :
    ((holding (listing State.reset 31 (ranged .confirmed)) 5 entry).entry 5 = some entry ∧
      (listing State.reset 31 (ranged .confirmed)).retired 31 = some (ranged .confirmed) ∧
      (entry.key.range (State.reset.geometry 0)).overlaps (ranged .confirmed).range = true ∧
      ∀ k b, k < 31 → (listing State.reset 31 (ranged .confirmed)).retired k = some b →
        (entry.key.range (State.reset.geometry 0)).overlaps b.range = false) ∧
    ((holding State.reset 5 entry).entry 5 = some entry ∧ State.reset.retired 0 = none) ∧
    (crowded.entry 5 = some entry ∧ (∀ j, crowded.retired j ≠ none) ∧
      ∀ k b, crowded.retired k = some b → (entry.key.range (crowded.geometry 0)).overlaps b.range = false) := by
  refine ⟨⟨by decide +kernel, by decide +kernel, by decide +kernel, ?_⟩, ⟨by decide +kernel, by decide +kernel⟩, by decide +kernel, ?_, ?_⟩
  · intro k b hk h
    rw [listing_retired, if_neg (by intro e; subst e; exact absurd hk (by decide))] at h
    cases h
  · intro j h; simp [crowded, State.retired] at h
  · intro k b h
    have : crowded.retired k = some { ranged .proposed with range := ⟨7, 0, 0, 0, 0⟩ } := by simp [crowded, State.retired]
    rw [this] at h; cases h; decide +kernel

theorem witness_FreeOfAnEntry : verifying.QueueLaw ∧ verifying.entry 3 = some { entry with status := .running } ∧
    ((holding State.reset 0 entry).QueueLaw ∧ (holding State.reset 0 entry).entry 0 = some entry ∧ entry.status = .idle) := by
  refine ⟨verifying_queueLaw _ rfl rfl rfl, verifying_entry 3, ⟨?_, by rw [holding_entry]; rfl, rfl⟩⟩
  refine ⟨by decide, by decide, ?_, ?_, ?_, ?_⟩
  · intro j hj; cases hj
  · intro i e h
    rw [holding_entry] at h
    split at h
    · cases h
      exact ⟨⟨fun h => absurd h (by decide), fun h => absurd h (by simp [holding, State.setEntry, State.reset, State.held, VerifyQueue.held])⟩,
        ⟨fun h => absurd h (by decide), fun h => absurd h (by simp [holding, State.setEntry, State.reset, State.held, VerifyQueue.held])⟩⟩
    · cases h
  · intro j hj; cases hj
  · intro j hj; cases hj

theorem witness_LeakExpiryDrainsTable : State.reset.rst = false ∧
    (State.reset.setCet { State.reset.cet with leakTimer := some 0 }).cet.leakTimer = some 0 ∧
    State.reset.cet.leakTimer ≠ some 0 := by decide

theorem witness_CetReads :
    (let s := cmd State.reset .system 16 [127]; s.Takes .system 16 ∧ field (s.param .system 0) 15 0 = (127 : CetIdx).val) ∧
    (let s := cmd State.reset .system 16 [128]; s.Takes .system 16 ∧ 128 ≤ field (s.param .system 0) 15 0) ∧
    (let s := cmd (holding State.reset 0 entry) .system 17 [0x00090210, 5]
     s.Takes .system 17 ∧ LocWords (s.param .system 0) (s.param .system 1) ⟨0, 1, 2, 5, 9⟩ ∧ (s.geometry 0).admits 1 2 5 = true ∧
       s.entry 0 = some entry ∧
       entry.key = s.cet.policy.granularity.reduce ⟨0, 1, 2, 5, 9⟩ ∧ ∀ j f, j < 0 → s.entry j = some f → f.key ≠ entry.key) ∧
    (let s := cmd State.reset .system 17 [0x00090210, 5]
     s.Takes .system 17 ∧ LocWords (s.param .system 0) (s.param .system 1) ⟨0, 1, 2, 5, 9⟩ ∧
       ∀ j f, s.entry j = some f → f.key ≠ s.cet.policy.granularity.reduce ⟨0, 1, 2, 5, 9⟩) ∧
    (let s := cmd State.reset .system 17 [0x2000, 0]; s.Takes .system 17 ∧ BeyondRange (s.param .system 0) (s.param .system 1)) ∧
    (let s := cmd (State.reset.modLink 0 (fun l => { l with geometry := ⟨1, 4, 1⟩ })) .system 17 [0, 1]
     s.Takes .system 17 ∧ LocWords (s.param .system 0) (s.param .system 1) ⟨0, 0, 0, 1, 0⟩ ∧ (s.geometry 0).admits 0 0 1 = false) ∧
    ({ entry with result := some (.inconclusive, 7), link := some 31 } : CetEntry).count ≤ 65535 :=
  ⟨⟨reset_takes _ _ _, by decide⟩, ⟨reset_takes _ _ _, by decide⟩,
    ⟨cmd_takes _ _ _ _ rfl rfl, by refine ⟨?_, ?_, ?_, ?_, ?_⟩ <;> decide, by decide, by decide +kernel, rfl,
      fun j f h => absurd h (by simp)⟩,
    ⟨reset_takes _ _ _, by refine ⟨?_, ?_, ?_, ?_, ?_⟩ <;> decide, fun j f h => absurd ((reset_entry j).symm.trans h) (by simp)⟩,
    ⟨reset_takes _ _ _, Or.inr (Or.inr (Or.inl (by decide)))⟩,
    ⟨cmd_takes _ _ _ _ rfl rfl, by refine ⟨?_, ?_, ?_, ?_, ?_⟩ <;> decide, by decide⟩, by decide⟩

theorem witness_CetClearsAndPins :
    (let s := cmd (holding State.reset 127 entry) .system 18 [127]
     s.Takes .system 18 ∧ field (s.param .system 0) 15 0 = (127 : CetIdx).val ∧ s.entry 127 = some entry) ∧
    (let s := cmd State.reset .system 18 [0]
     s.Takes .system 18 ∧ field (s.param .system 0) 15 0 = (0 : CetIdx).val ∧ s.entry 0 = none) ∧
    (let s := cmd State.reset .system 18 [128]; s.Takes .system 18 ∧ 128 ≤ field (s.param .system 0) 15 0) ∧
    ((cmd State.reset .system 19 []).Takes .system 19 ∧ (cmd State.reset .system 19 []).verify.jobs = []) ∧
    (let s := cmd (holding State.reset 3 entry) .system 20 [3]
     s.Takes .system 20 ∧ s.entry 3 = some entry ∧ entry.pinned = false ∧ s.cet.pinnedCount < 96) ∧
    (let s := cmd (holding State.reset 3 { entry with pinned := true }) .system 20 [3]
     s.Takes .system 20 ∧ s.entry 3 = some { entry with pinned := true }) ∧
    (let s := cmd (holding (full { entry with pinned := true }) 3 entry) .system 20 [3]
     s.Takes .system 20 ∧ s.entry 3 = some entry ∧ 96 ≤ s.cet.pinnedCount) ∧
    (let s := cmd (holding State.reset 3 entry) .system 21 [3]; s.Takes .system 21 ∧ s.entry 3 = some entry) ∧
    (let s := cmd State.reset .system 21 [3]; s.Takes .system 21 ∧ s.entry 3 = none) :=
  ⟨⟨cmd_takes _ _ _ _ rfl rfl, by decide, by decide +kernel⟩, ⟨reset_takes _ _ _, by decide, by decide +kernel⟩,
    ⟨reset_takes _ _ _, by decide⟩, ⟨reset_takes _ _ _, rfl⟩,
    ⟨cmd_takes _ _ _ _ rfl rfl, by decide +kernel, rfl, by decide +kernel⟩, ⟨cmd_takes _ _ _ _ rfl rfl, by decide +kernel⟩,
    ⟨cmd_takes _ _ _ _ rfl rfl, by decide +kernel, by decide +kernel⟩, ⟨cmd_takes _ _ _ _ rfl rfl, by decide +kernel⟩,
    ⟨reset_takes _ _ _, by decide +kernel⟩⟩

theorem witness_ListAndLogReads :
    (let s := cmd State.reset .system 32 [31]; s.Takes .system 32 ∧ field (s.param .system 0) 15 0 = (31 : RetIdx).val) ∧
    (let s := cmd State.reset .system 32 [32]; s.Takes .system 32 ∧ 32 ≤ field (s.param .system 0) 15 0) ∧
    (let s := cmd (listing State.reset 0 (ranged .proposed)) .system 33 [0x00090210, 5]
     s.Takes .system 33 ∧ LocWords (s.param .system 0) (s.param .system 1) ⟨0, 1, 2, 5, 9⟩ ∧ (s.geometry 0).admits 1 2 5 = true ∧
       s.retired 0 = some (ranged .proposed) ∧ (Loc.mk 0 1 2 5 9).inside (ranged .proposed).range = true) ∧
    (let s := cmd State.reset .system 33 [0x00090210, 5]
     s.Takes .system 33 ∧ ∀ i a, s.retired i = some a → (Loc.mk 0 1 2 5 9).inside a.range = false) ∧
    (let s := cmd (State.reset.modLink 0 (fun l => { l with geometry := ⟨1, 4, 1⟩ })) .system 33 [0, 1]
     s.Takes .system 33 ∧ LocWords (s.param .system 0) (s.param .system 1) ⟨0, 0, 0, 1, 0⟩ ∧ (s.geometry 0).admits 0 0 1 = false) ∧
    (let s := cmd (logging State.reset [ueRecord 7 .opened none]) .system 48 [0, 0]
     s.Takes .system 48 ∧ s.param .system 0 = 0 ∧ field (s.param .system 1) 15 0 ≤ 15 ∧
       s.uel.records[field (s.param .system 1) 15 0]? = some (ueRecord 7 .opened none)) ∧
    (let s := cmd State.reset .system 48 [0, 15]
     s.Takes .system 48 ∧ field (s.param .system 1) 15 0 ≤ 15 ∧ s.uel.records.length ≤ field (s.param .system 1) 15 0) ∧
    (let s := cmd State.reset .system 48 [0, 16]; s.Takes .system 48 ∧ 15 < field (s.param .system 1) 15 0) ∧
    (let s := cmd (logging State.reset [ueRecord 255 .opened none]) .system 48 [1, 255]
     s.Takes .system 48 ∧ s.param .system 0 = 1 ∧ s.uel.records = [] ++ ueRecord 255 .opened none :: [] ∧
       (ueRecord 255 .opened none).id.toNat = field (s.param .system 1) 15 0) ∧
    (let s := cmd State.reset .system 48 [1, 256]; s.Takes .system 48 ∧ 255 < field (s.param .system 1) 15 0) ∧
    (let s := cmd State.reset .system 48 [2, 0]; s.Takes .system 48 ∧ 2 ≤ (s.param .system 0).toNat) ∧
    (let s := cmd State.reset .system 50 [0]; s.Takes .system 50 ∧ s.param .system 0 = 0) ∧
    (let s := cmd State.reset .system 50 [1]; s.Takes .system 50 ∧ s.param .system 0 = 1) ∧
    (let s := cmd State.reset .system 50 [2]; s.Takes .system 50 ∧ 2 ≤ (s.param .system 0).toNat) :=
  ⟨⟨reset_takes _ _ _, by decide⟩, ⟨reset_takes _ _ _, by decide⟩,
    ⟨cmd_takes _ _ _ _ rfl rfl, by refine ⟨?_, ?_, ?_, ?_, ?_⟩ <;> decide, by decide, by decide +kernel, by decide⟩,
    ⟨reset_takes _ _ _, fun i a h => absurd ((reset_retired i).symm.trans h) (by simp)⟩,
    ⟨cmd_takes _ _ _ _ rfl rfl, by refine ⟨?_, ?_, ?_, ?_, ?_⟩ <;> decide, by decide⟩,
    ⟨cmd_takes _ _ _ _ rfl rfl, rfl, by decide, by decide⟩, ⟨reset_takes _ _ _, by decide, by decide⟩,
    ⟨reset_takes _ _ _, by decide⟩, ⟨cmd_takes _ _ _ _ rfl rfl, rfl, rfl, by decide⟩, ⟨reset_takes _ _ _, by decide⟩,
    ⟨reset_takes _ _ _, by decide⟩, ⟨reset_takes _ _ _, rfl⟩, ⟨reset_takes _ _ _, rfl⟩, ⟨reset_takes _ _ _, by decide⟩⟩

theorem witness_AddAndConfirmBeginPurge :
    (let s := cmd State.reset .system 34 [8]; s.Takes .system 34 ∧ s.engine.authority.admits .system = true ∧
       8 ≤ field (s.param .system 0) 3 0) ∧
    (let s := cmd State.reset .system 34 [0x210, 7, 4]
     s.Takes .system 34 ∧ RangeWords (s.param .system 0) (s.param .system 1) (s.param .system 2) ⟨0, 1, 2, 7, 4⟩ ∧
       (Range.mk 0 1 2 7 4).wellFormed (s.geometry 0) = false) ∧
    (let s := cmd (listing State.reset 0 (ranged .proposed)) .system 34 [0x210, 7, 262143]
     s.Takes .system 34 ∧ RangeWords (s.param .system 0) (s.param .system 1) (s.param .system 2) ⟨0, 1, 2, 7, 262143⟩ ∧
       (Range.mk 0 1 2 7 262143).wellFormed (s.geometry 0) = true ∧ s.retired 0 = some (ranged .proposed) ∧
       (Range.mk 0 1 2 7 262143).overlaps (ranged .proposed).range = true) ∧
    (let s := cmd crowded .system 34 [0x210, 4, 7]
     s.Takes .system 34 ∧ (∀ i, s.retired i ≠ none) ∧
       ∀ i a, s.retired i = some a → (Range.mk 0 1 2 4 7).overlaps a.range = false) ∧
    (let s := cmd State.reset .system 34 [0x210, 4, 7]
     s.Takes .system 34 ∧ s.retired 0 = none ∧ ∀ i a, s.retired i = some a → (Range.mk 0 1 2 4 7).overlaps a.range = false) ∧
    (let s := cmd State.reset .system 35 [32]; s.Takes .system 35 ∧ 32 ≤ field (s.param .system 0) 15 0) ∧
    (let s := cmd State.reset .system 35 [31]
     s.Takes .system 35 ∧ field (s.param .system 0) 15 0 = (31 : RetIdx).val ∧ s.retired 31 = none) ∧
    (let s := cmd (listing State.reset 31 (ranged .confirmed)) .system 35 [31]
     s.Takes .system 35 ∧ s.retired 31 = some (ranged .confirmed)) ∧
    (let s := cmd (listing State.reset 31 (ranged .proposed)) .system 35 [31]
     s.Takes .system 35 ∧ s.retired 31 = some (ranged .proposed)) :=
  ⟨⟨reset_takes _ _ _, rfl, by decide⟩,
    ⟨reset_takes _ _ _, by refine ⟨?_, ?_, ?_, ?_, ?_⟩ <;> decide, by decide⟩,
    ⟨cmd_takes _ _ _ _ rfl rfl, by refine ⟨?_, ?_, ?_, ?_, ?_⟩ <;> decide, by decide, by decide +kernel, by decide⟩,
    ⟨cmd_takes _ _ _ _ rfl rfl, fun j h => by simp [cmd, crowded, State.retired, State.setMail] at h, fun k b h => by
      have : (cmd crowded .system 34 [0x210, 4, 7]).retired k = some { ranged .proposed with range := ⟨7, 0, 0, 0, 0⟩ } := by
        simp [cmd, crowded, State.retired, State.setMail]
      rw [this] at h; cases h; decide⟩,
    ⟨reset_takes _ _ _, by decide +kernel, fun i a h => absurd ((reset_retired i).symm.trans h) (by simp)⟩,
    ⟨reset_takes _ _ _, by decide⟩, ⟨reset_takes _ _ _, by decide, by decide +kernel⟩,
    ⟨cmd_takes _ _ _ _ rfl rfl, by decide +kernel⟩, ⟨cmd_takes _ _ _ _ rfl rfl, by decide +kernel⟩⟩

theorem witness_RejectAndRemove :
    (let s := cmd (listing State.reset 31 (ranged .proposed)) .system 36 [31]
     field (s.param .system 0) 15 0 = (31 : RetIdx).val ∧ s.engine.authority.admits .system = true ∧ s.Takes .system 36 ∧
       s.retired 31 = some (ranged .proposed) ∧ ∀ c, (ranged .proposed).evidence ≠ some (.cet c)) ∧
    (let s := cmd (holding (listing State.reset 31 { ranged .proposed with evidence := some (.cet 9) }) 9 entry) .system 36 [31]
     s.Takes .system 36 ∧ s.retired 31 = some { ranged .proposed with evidence := some (.cet 9) } ∧ s.entry 9 ≠ none) ∧
    (let s := cmd (listing State.reset 31 (ranged .confirmed)) .system 36 [31]
     s.Takes .system 36 ∧ s.retired 31 = some (ranged .confirmed)) ∧
    (let s := cmd State.reset .system 37 [0]; s.Takes .system 37 ∧ s.retired 0 = none) ∧
    (let s := cmd (listing State.reset 31 (ranged .confirmed)) .system 37 [31]
     s.Takes .system 37 ∧ s.retired 31 = some (ranged .confirmed)) :=
  ⟨⟨by decide, rfl, cmd_takes _ _ _ _ rfl rfl, by decide +kernel, fun c h => by cases h⟩,
    ⟨cmd_takes _ _ _ _ rfl rfl, by decide +kernel, by decide +kernel⟩, ⟨cmd_takes _ _ _ _ rfl rfl, by decide +kernel⟩,
    ⟨reset_takes _ _ _, by decide +kernel⟩, ⟨cmd_takes _ _ _ _ rfl rfl, by decide +kernel⟩⟩

/-- A state with a purge at an index. -/
def purging (next : Nat) : State :=
  ((listing (State.reset.setSysMail { State.reset.sysMail with state := .running }) 2 (ranged .confirmed))).setEngine
    { State.reset.engine with purge := some ⟨2, next, 4⟩ }

theorem witness_PurgeVisitsNextIndex : ∀ n : Fin 128, n = 0 ∨ n = 126 ∨ n = 127 →
    (purging n).rst = false ∧ (purging n).engine.purge = some ⟨2, n, 4⟩ ∧ (purging n).retired 2 = some (ranged .confirmed) ∧
      ((purging n).mail .system).state = .running ∧ ((purging n).mail (Port.other .system)).state ≠ .running := by decide +kernel

theorem witness_AppendStoresProposesOrLoses :
    ((logging State.reset (List.replicate 15 (ueRecord 0 .opened none))).uel.records.length < 16 ∧
      State.reset.uel.policy.proposeOnUe = false) ∧
    16 ≤ (logging State.reset (List.replicate 16 (ueRecord 0 .opened none))).uel.records.length ∧
    (let s := State.reset.setUel { State.reset.uel with policy := { State.reset.uel.policy with proposeOnUe := true } }
     s.uel.records.length < 16 ∧ s.uel.policy.proposeOnUe = true ∧ s.retired 0 = none ∧
       (listing s 1 (ranged .proposed)).retired 1 = some (ranged .proposed) ∧
       (Loc.mk 0 1 2 7 0).inside (ranged .proposed).range = true ∧ (Loc.mk 0 1 2 8 0).inside (ranged .proposed).range = false) := by
  decide +kernel

theorem witness_WindowExpiries : State.reset.rst = false ∧
    (logging State.reset [ueRecord 1 .opened (some 0)]).uel.records[0]? = some (ueRecord 1 .opened (some 0)) ∧
    (logging State.reset [ueRecord 1 .handedOver (some 0)]).uel.records[0]? = some (ueRecord 1 .handedOver (some 0)) ∧
    State.reset.uel.records[15]? = none := by decide

theorem witness_AckRemovesOldestWithId :
    (let s := cmd State.reset .system 49 [256]; s.Takes .system 49 ∧ 256 ≤ field (s.param .system 0) 15 0) ∧
    (let s := cmd State.reset .system 49 [255]
     s.Takes .system 49 ∧ field (s.param .system 0) 15 0 ≤ 255 ∧ ∀ r ∈ s.uel.records, r.id.toNat ≠ 255) ∧
    (let s := cmd (logging State.reset [ueRecord 1 .opened none, ueRecord 255 .opened none, ueRecord 255 .escalated none]) .service 49 [255]
     s.Takes .service 49 ∧ s.uel.records = [ueRecord 1 .opened none] ++ ueRecord 255 .opened none :: [ueRecord 255 .escalated none] ∧
       (ueRecord 255 .opened none).id.toNat = field (s.param .service 0) 15 0 ∧
       ∀ x ∈ [ueRecord 1 .opened none], x.id.toNat ≠ field (s.param .service 0) 15 0) :=
  ⟨⟨reset_takes _ _ _, by decide⟩, ⟨reset_takes _ _ _, by decide, by decide⟩,
    ⟨cmd_takes _ _ _ _ rfl rfl, rfl, by decide, by decide⟩⟩

theorem witness_SoftResetRestartsTraffic :
    ((cmd up .service 83 []).Takes .service 83 ∧ ((cmd up .service 83 []).link 0).state ≠ .down ∧
      ((cmd up .service 83 []).link 7).state = .down) ∧
    ((cmd failed .service 83 []).Takes .service 83 ∧ ((cmd failed .service 83 []).link 0).state = .failed) ∧
    ((cmd State.reset .service 83 []).Takes .service 83 ∧ ∀ ch, ((cmd State.reset .service 83 []).link ch).state = .down) :=
  ⟨⟨up_takes _ _ _, by decide, by decide⟩, ⟨cmd_takes _ _ _ _ rfl rfl, by decide⟩, ⟨reset_takes _ _ _, by decide⟩⟩

theorem witness_FlagsLatchAndRecordsPersist :
    ((∃ t, exec .leakExpiry (State.reset.setFlag .ueLogged) = .next t) ∧ (State.reset.setFlag .ueLogged).flagged .ueLogged = true) ∧
    (let s := cmd (State.reset.setFatal .overflow) .service 82 []
     s.events.fatalLatch = true ∧ ∃ t, exec .clearFatal s = .next t ∧ t.events.fatalLatch = false) :=
  ⟨⟨⟨_, rfl⟩, by decide⟩, by decide, _, rfl, by decide⟩

theorem witness_SettingsChangeByTheirCommands : ∃ t, exec .leakExpiry State.reset = .next t := ⟨_, rfl⟩

/-- A lawful state with one entry in the CET and a leak interval that has run out. -/
def lawful : State :=
  ((holding State.reset 3 entry).setCet { (holding State.reset 3 entry).cet with leakTimer := some 0 }).withFront .leakExpiry

theorem lawful_entry (i : CetIdx) : lawful.entry i = if i = 3 then some entry else none := holding_entry entry 3 i

theorem lawful_retired (i : RetIdx) : lawful.retired i = none := reset_retired i

theorem witness_CreditLawKept : lawful.CreditLaw ∧ ∃ t, step lawful = .next t := by
  refine ⟨?_, _, rfl⟩
  simp only [State.CreditLaw]
  decide +kernel

theorem witness_LinkScrubAndTransmitterLawsKept : lawful.LinkLaw ∧ lawful.ScrubLaw ∧ lawful.TransmitterLaw := by
  refine ⟨?_, ?_, ?_⟩
  · simp only [State.LinkLaw]; decide +kernel
  · simp only [State.ScrubLaw]; decide +kernel
  · simp only [State.TransmitterLaw]; decide +kernel

theorem witness_TableAndEngineLawsKept :
    lawful.CetLaw ∧ lawful.ListLaw ∧ lawful.UelLaw ∧ lawful.EngineLaw ∧ lawful.SettingsLaw := by
  refine ⟨⟨?_, ?_, by decide +kernel⟩, ⟨?_, ?_, ?_⟩, ⟨by decide, ?_⟩, ⟨by decide, by decide, ?_⟩, ?_⟩
  · intro i e h
    rw [lawful_entry] at h
    split at h
    · cases h; decide
    · cases h
  · intro i j e f hi hj _
    rw [lawful_entry] at hi hj
    split at hi <;> split at hj <;> simp_all
  · intro i j a b h; rw [lawful_retired] at h; cases h
  · intro i a h; rw [lawful_retired] at h; cases h
  · intro i a h; rw [lawful_retired] at h; cases h
  · intro r h; cases h
  · intro g h; cases h
  · simp only [State.SettingsLaw]; decide +kernel

theorem witness_VerifyAndPurgeLawsKept : lawful.Lawful ∧ ∃ t, step lawful = .next t := by
  obtain ⟨cet, list, uel, engine, settings⟩ := witness_TableAndEngineLawsKept
  obtain ⟨link, scrub, transmitter⟩ := witness_LinkScrubAndTransmitterLawsKept
  have tags : ∀ (ch : Chan) (tag : Tag), (lawful.scrub ch).tags.get tag = none := by decide +kernel
  have records : ∀ ch : Chan, lawful.verify.records.get ch = none := by decide +kernel
  have jobs : lawful.verify.jobs = [] := rfl
  refine ⟨⟨witness_CreditLawKept.1, link, scrub, transmitter, cet, list, uel, engine, ?_, ?_, ?_, ?_, ?_, settings⟩, _, rfl⟩
  · refine ⟨fun ch => ⟨by revert ch; decide +kernel, by revert ch; decide +kernel, fun tag q h => ?_⟩, ?_, ?_, ?_⟩
    · rw [tags] at h; cases h
    · intro i e h
      rw [lawful_entry] at h
      split at h
      · cases h; decide +kernel
      · cases h
    · intro i a h; rw [lawful_retired] at h; cases h
    · intro j h; rw [jobs] at h; cases h
  · intro i e j a _ h; rw [lawful_retired] at h; cases h
  · refine ⟨by simp [jobs], by simp [jobs], by simp [jobs], ?_, by simp [jobs], by simp [jobs]⟩
    intro i e h
    rw [lawful_entry] at h
    split at h
    · cases h; simp [jobs, show entry.status = .idle from rfl]
    · cases h
  · intro ch tag number
    simp [tags, records]
  · refine ⟨by simp [jobs], by simp [jobs], by simp [jobs], ?_⟩
    intro ch r h; rw [records] at h; cases h

end Sys2Proof.Tests
end

/-! The settings of the part as one value, what each named update does to it, and what each command may do to it. -/

namespace Sys2Proof.Machine

/-! ### The settings and what a command may do to them -/

/-- R127, R143, R144: the settings of a scrub context. -/
structure ScrubSettings where
  mode         : PatrolMode
  pacing       : Nat
  holdPolicy   : HoldPolicy
  segment      : Nat
  ceiling      : Nat
  replyTimeout : Nat

def Scrub.settings (c : Scrub) : ScrubSettings := ⟨c.mode, c.pacing, c.holdPolicy, c.segment, c.ceiling, c.replyTimeout⟩

/-- R169: the settings that SET_POLICY carries. -/
structure TableSettings where
  cet     : CetPolicy
  uel     : UelPolicy
  batch   : Nat
  reads   : Nat
  persist : Nat
  arbiter : ArbiterMode

/-- Every setting of the part, apart from what the blocks do with it. -/
structure Settings where
  geometry     : Chan → Geometry
  authority    : Authority
  serviceFirst : Bool
  irqMask      : BitVec 17
  alertMask    : BitVec 17
  tables       : TableSettings
  scrub        : Chan → ScrubSettings

/-- The settings of a state. -/
def State.settings (s : State) : Settings where
  geometry     := s.geometry
  authority    := s.engine.authority
  serviceFirst := s.engine.serviceFirst
  irqMask      := s.events.irqMask
  alertMask    := s.events.alertMask
  tables       := ⟨s.cet.policy, s.uel.policy, s.batch, s.verify.reads, s.verify.persist, s.intake.mode⟩
  scrub        := fun ch => (s.scrub ch).settings

/-- The settings with those of one scrub context replaced. -/
def Settings.setScrub (a : Settings) (ch : Chan) (x : ScrubSettings) : Settings :=
  { a with scrub := Function.update a.scrub ch x }

/-- What a command other than FULL_RESET may do to the settings: nothing, or a new value for the setting that is its own. -/
inductive SettingsStep : Instr → Settings → Settings → Prop
  | keep {c : Instr} {a : Settings} : SettingsStep c a a
  | configureChannel (a : Settings) (ch : Chan) (g : Geometry) :
      SettingsStep .configureChannel a { a with geometry := Function.update a.geometry ch g }
  | setAuthority (a : Settings) (x : Authority) : SettingsStep .setAuthority a { a with authority := x }
  | setServiceFirst (a : Settings) (b : Bool) : SettingsStep .setServiceFirst a { a with serviceFirst := b }
  | systemMask (a : Settings) (v : Word) : SettingsStep (.lineMaskWrite .system v) a { a with irqMask := v.setWidth 17 }
  | serviceMask (a : Settings) (v : Word) : SettingsStep (.lineMaskWrite .service v) a { a with alertMask := v.setWidth 17 }
  | setPolicy (a : Settings) (x : TableSettings) : SettingsStep .setPolicy a { a with tables := x }
  | scrubStart (a : Settings) (ch : Chan) (m : PatrolMode) :
      SettingsStep .scrubStart a (a.setScrub ch { a.scrub ch with mode := m })
  | setPacing (a : Settings) (ch : Chan) (n : Nat) :
      SettingsStep .setPacing a (a.setScrub ch { a.scrub ch with pacing := n })
  | setHoldPolicy (a : Settings) (ch : Chan) (p : HoldPolicy) (segment ceiling : Nat) :
      SettingsStep .setHoldPolicy a (a.setScrub ch
        { a.scrub ch with holdPolicy := p, segment := segment, ceiling := ceiling })
  | setTimeout (a : Settings) (ch : Chan) (n : Nat) :
      SettingsStep .setTimeout a (a.setScrub ch { a.scrub ch with replyTimeout := n })

section
variable {c : Instr} {a b : Settings}

theorem SettingsStep.of_eq (h : b = a) : SettingsStep c a b := h ▸ .keep

/-- A field that the replacement of one context's settings keeps is kept in every context. -/
theorem Settings.setScrub_field {α : Type} (a : Settings) {ch : Chan} {x : ScrubSettings} (p : ScrubSettings → α)
    (h : p x = p (a.scrub ch)) (d : Chan) : p ((a.setScrub ch x).scrub d) = p (a.scrub d) := by
  by_cases hd : d = ch
  · subst hd; simpa [Settings.setScrub] using h
  · simp [Settings.setScrub, hd]

theorem SettingsStep.geometry_kept (h : SettingsStep c a b) (hc : c ≠ .configureChannel) : b.geometry = a.geometry := by
  cases h with
  | configureChannel => exact absurd rfl hc
  | _ => rfl

theorem SettingsStep.authority_kept (h : SettingsStep c a b) (hc : c ≠ .setAuthority) : b.authority = a.authority := by
  cases h with
  | setAuthority => exact absurd rfl hc
  | _ => rfl

theorem SettingsStep.serviceFirst_kept (h : SettingsStep c a b) (hc : c ≠ .setServiceFirst) :
    b.serviceFirst = a.serviceFirst := by
  cases h with
  | setServiceFirst => exact absurd rfl hc
  | _ => rfl

theorem SettingsStep.irqMask_kept (h : SettingsStep c a b) (hc : ∀ v, c ≠ .lineMaskWrite .system v) :
    b.irqMask = a.irqMask := by
  cases h with
  | systemMask _ v => exact absurd rfl (hc v)
  | _ => rfl

theorem SettingsStep.alertMask_kept (h : SettingsStep c a b) (hc : ∀ v, c ≠ .lineMaskWrite .service v) :
    b.alertMask = a.alertMask := by
  cases h with
  | serviceMask _ v => exact absurd rfl (hc v)
  | _ => rfl

theorem SettingsStep.tables_kept (h : SettingsStep c a b) (hc : c ≠ .setPolicy) : b.tables = a.tables := by
  cases h with
  | setPolicy => exact absurd rfl hc
  | _ => rfl

theorem SettingsStep.mode_kept (h : SettingsStep c a b) (hc : c ≠ .scrubStart) (ch : Chan) :
    (b.scrub ch).mode = (a.scrub ch).mode := by
  cases h with
  | scrubStart => exact absurd rfl hc
  | setPacing | setHoldPolicy | setTimeout => exact a.setScrub_field ScrubSettings.mode (by rfl) ch
  | _ => rfl

theorem SettingsStep.pacing_kept (h : SettingsStep c a b) (hc : c ≠ .setPacing) (ch : Chan) :
    (b.scrub ch).pacing = (a.scrub ch).pacing := by
  cases h with
  | setPacing => exact absurd rfl hc
  | scrubStart | setHoldPolicy | setTimeout => exact a.setScrub_field ScrubSettings.pacing (by rfl) ch
  | _ => rfl

/-- R127: the hold policy, the segment size and the hold ceiling of a scrub context. -/
def ScrubSettings.hold (x : ScrubSettings) : HoldPolicy × Nat × Nat := (x.holdPolicy, x.segment, x.ceiling)

theorem SettingsStep.hold_kept (h : SettingsStep c a b) (hc : c ≠ .setHoldPolicy) (ch : Chan) :
    (b.scrub ch).hold = (a.scrub ch).hold := by
  cases h with
  | setHoldPolicy => exact absurd rfl hc
  | scrubStart | setPacing | setTimeout => exact a.setScrub_field ScrubSettings.hold (by rfl) ch
  | _ => rfl

theorem SettingsStep.replyTimeout_kept (h : SettingsStep c a b) (hc : c ≠ .setTimeout) (ch : Chan) :
    (b.scrub ch).replyTimeout = (a.scrub ch).replyTimeout := by
  cases h with
  | setTimeout => exact absurd rfl hc
  | scrubStart | setPacing | setHoldPolicy => exact a.setScrub_field ScrubSettings.replyTimeout (by rfl) ch
  | _ => rfl

end

/-! ### The settings after each update of the state

An update of a block that holds settings keeps them where it keeps the block's own. -/

section
variable (s : State)

@[simp] theorem State.setRst_settings (x : Bool) : (s.setRst x).settings = s.settings := rfl
@[simp] theorem State.setClock_settings (x : Clock) : (s.setClock x).settings = s.settings := rfl
@[simp] theorem State.setRetire_settings (x : RetireList) : (s.setRetire x).settings = s.settings := rfl
@[simp] theorem State.setQueues_settings (x : Table (List Report) 8) : (s.setQueues x).settings = s.settings := rfl
@[simp] theorem State.modClassifier_settings (ch : Chan) (f : ClassifierCounters → ClassifierCounters) :
    (s.modClassifier ch f).settings = s.settings := rfl
@[simp] theorem State.modTx_settings (ch : Chan) (f : Transmitter → Transmitter) : (s.modTx ch f).settings = s.settings := rfl
@[simp] theorem State.setFlag_settings (f : EventFlag) : (s.setFlag f).settings = s.settings := rfl
@[simp] theorem State.clearFlags_settings (v : Word) : (s.clearFlags v).settings = s.settings := rfl
@[simp] theorem State.clearLatch_settings : s.clearLatch.settings = s.settings := rfl

@[simp] theorem State.setFatal_settings (x : FatalCause) : (s.setFatal x).settings = s.settings := by cases x <;> rfl
@[simp] theorem State.setMail_settings (p : Port) (m : Mailbox) : (s.setMail p m).settings = s.settings := by cases p <;> rfl
@[simp] theorem State.drive_settings (p : Port) (v : Word) : (s.drive p v).settings = s.settings := by cases p <;> rfl

@[simp] theorem State.setCet_settings (x : Cet) (h : x.policy = s.cet.policy) : (s.setCet x).settings = s.settings :=
  congrArg (fun p => { s.settings with tables := { s.settings.tables with cet := p } }) h

@[simp] theorem State.setUel_settings (x : Uel) (h : x.policy = s.uel.policy) : (s.setUel x).settings = s.settings :=
  congrArg (fun p => { s.settings with tables := { s.settings.tables with uel := p } }) h

@[simp] theorem State.setIntake_settings (x : Intake) (h : x.mode = s.intake.mode) :
    (s.setIntake x).settings = s.settings :=
  congrArg (fun m => { s.settings with tables := { s.settings.tables with arbiter := m } }) h

theorem State.modLink_settings (ch : Chan) (f : Link → Link) : (s.modLink ch f).settings =
    { s.settings with geometry := Function.update s.settings.geometry ch (f (s.link ch)).geometry } := by
  have h : (s.modLink ch f).geometry = Function.update s.geometry ch (f (s.link ch)).geometry := by
    funext d
    by_cases hd : d = ch <;> simp [State.geometry, hd]
  simp only [State.settings, h]; rfl

@[simp] theorem State.modLink_keeps (ch : Chan) (f : Link → Link) (h : (f (s.link ch)).geometry = (s.link ch).geometry) :
    (s.modLink ch f).settings = s.settings := by
  rw [State.modLink_settings, h]
  exact congrArg (fun g => { s.settings with geometry := g }) (Function.update_eq_self ch s.geometry)

theorem State.modScrub_settings (ch : Chan) (f : Scrub → Scrub) : (s.modScrub ch f).settings =
    s.settings.setScrub ch (f (s.scrub ch)).settings := by
  have h : (fun d => ((s.modScrub ch f).scrub d).settings) =
      Function.update s.settings.scrub ch (f (s.scrub ch)).settings := by
    funext d
    by_cases hd : d = ch <;> simp [State.settings, hd]
  exact congrArg (fun x => { s.settings with scrub := x }) h

@[simp] theorem State.modScrub_keeps (ch : Chan) (f : Scrub → Scrub) (h : (f (s.scrub ch)).settings = (s.scrub ch).settings) :
    (s.modScrub ch f).settings = s.settings := by
  rw [State.modScrub_settings, h]
  exact congrArg (fun x => { s.settings with scrub := x }) (Function.update_eq_self ch s.settings.scrub)

theorem State.setLinks_map_settings (f : Link → Link) (h : ∀ l, (f l).geometry = l.geometry) :
    (s.setLinks (s.links.map f)).settings = s.settings := by
  have hg : (s.setLinks (s.links.map f)).geometry = s.geometry := by
    funext ch; simp [State.geometry, State.link, h]
  exact congrArg (fun g => { s.settings with geometry := g }) hg

theorem State.setScrubs_map_settings (f : Scrub → Scrub) (h : ∀ x, (f x).settings = x.settings) :
    (s.setScrubs (s.scrubs.map f)).settings = s.settings := by
  have hs : (fun ch => ((s.setScrubs (s.scrubs.map f)).scrub ch).settings) = s.settings.scrub := by
    funext ch; simp [State.scrub, State.settings, h]
  exact congrArg (fun x => { s.settings with scrub := x }) hs

/-- The tables' operations reach no setting. -/
theorem TablesOnly.settings_kept {s t : State} (h : TablesOnly s t) : t.settings = s.settings := by
  obtain ⟨hr, hp⟩ := h.settings
  have he := h.events.1
  have hg : t.geometry = s.geometry := funext fun ch => congrArg Link.geometry (h.link ch)
  have hs : (fun ch => (t.scrub ch).settings) = fun ch => (s.scrub ch).settings :=
    funext fun ch => congrArg Scrub.settings (h.scrub ch)
  rw [State.settings, State.settings, hg, h.engine, he, h.policy, h.uel, h.batch, hr, hp, h.intake, hs]

end

/-! ### The operations of the blocks keep every setting -/

@[simp] theorem Link.dropCredits_geometry (l : Link) : l.dropCredits.geometry = l.geometry := by cases l; rfl

@[simp] theorem Link.startCount_geometry (l : Link) (seq : BitVec 8) (n : Nat) :
    (l.startCount seq n).geometry = l.geometry := by cases l; rfl

@[simp] theorem Scrub.stop_settings (x : Scrub) : x.stop.settings = x.settings := by cases x; rfl
@[simp] theorem Scrub.release_settings (x : Scrub) : x.release.settings = x.settings := by cases x; rfl
@[simp] theorem Scrub.softReset_settings (x : Scrub) : x.softReset.settings = x.settings := by cases x; rfl

@[simp] theorem Scrub.segmentTest_settings (x : Scrub) : x.segmentTest.settings = x.settings := by
  unfold Scrub.segmentTest; split <;> rfl

@[simp] theorem Scrub.abandon_settings (x : Scrub) : x.abandon.settings = x.settings := by
  rw [Scrub.abandon_eq]; rfl

@[simp] theorem Scrub.takeResume_settings (x : Scrub) : x.takeResume.settings = x.settings := by
  unfold Scrub.takeResume; split <;> rfl

@[simp] theorem Scrub.fitCursor_settings (x : Scrub) (g : Geometry) : (x.fitCursor g).settings = x.settings := by
  unfold Scrub.fitCursor; split <;> rfl

@[simp] theorem Scrub.takeHold_settings (x : Scrub) : x.takeHold.settings = x.settings := by
  unfold Scrub.takeHold
  split
  · rfl
  · dsimp only
    split
    · split
      · rfl
      · rw [Scrub.segmentTest_settings]; rfl
    · rfl

@[simp] theorem Scrub.step_settings (x : Scrub) (g : Geometry) : (x.step g).settings = x.settings := by
  simp only [Scrub.step, Scrub.segmentTest_settings]
  split
  · rw [Scrub.stop_settings]; split <;> rfl
  · split <;> rfl

theorem Scrub.setHoldPolicy_settings (x : Scrub) (p : HoldPolicy) (segment ceiling : Nat) :
    (x.setHoldPolicy p segment ceiling).settings =
      { x.settings with holdPolicy := p, segment := segment, ceiling := ceiling } := by
  cases p with
  | immediate => simp only [Scrub.setHoldPolicy]; split <;> rfl
  | segment => exact Scrub.segmentTest_settings _

section
variable (s : State)

/-! The CET, the retirement list and the verify queue. -/

@[simp] theorem State.takeCe_settings (r : CeRecord) : (s.takeCe r).settings = s.settings := (s.takeCe_tables r).settings_kept

@[simp] theorem State.suppress_settings (i : RetIdx) : (s.suppress i).settings = s.settings := rfl

@[simp] theorem State.propose_settings (r : Range) (ev : Evidence) : (s.propose r ev).1.settings = s.settings :=
  (s.propose_tables r ev).settings_kept

@[simp] theorem State.endRead_settings (ch : Chan) (tag : Tag) (number : BitVec 8) (r : Option ReadResult) :
    (s.endRead ch tag number r).settings = s.settings := (s.endRead_tables ch tag number r).settings_kept

@[simp] theorem State.abortJob_settings (r : AbortReason) (i : CetIdx) : (s.abortJob r i).settings = s.settings :=
  (s.abortJob_tables r i).settings_kept

@[simp] theorem State.abortRunningOn_settings (ch : Chan) : (s.abortRunningOn ch).settings = s.settings :=
  (s.abortRunningOn_tables ch).settings_kept

@[simp] theorem State.freeEntry_settings (i : CetIdx) (r : Option AbortReason) : (s.freeEntry i r).settings = s.settings :=
  (s.freeEntry_tables i r).settings_kept

@[simp] theorem State.freeAll_settings (is : List CetIdx) (r : Option AbortReason) : (s.freeAll is r).settings = s.settings :=
  (s.freeAll_tables is r).settings_kept

@[simp] theorem State.createJob_settings (i : CetIdx) (ch : Chan) : (s.createJob i ch).settings = s.settings :=
  (s.createJob_tables i ch).settings_kept

@[simp] theorem State.leakTable_settings : s.leakTable.settings = s.settings := s.leakTable_tables.settings_kept

@[simp] theorem State.emptyVerify_settings : s.emptyVerify.settings = s.settings := s.emptyVerify_tables.settings_kept

@[simp] theorem State.modEntry_settings (i : CetIdx) (f : CetEntry → CetEntry) : (s.modEntry i f).settings = s.settings := rfl

@[simp] theorem State.setRetEntry_settings (i : RetIdx) (e : Option RetEntry) : (s.setRetEntry i e).settings = s.settings := rfl

@[simp] theorem State.unlinkAll_settings (i : RetIdx) : (s.unlinkAll i).settings = s.settings := rfl

@[simp] theorem State.setJobs_settings (jobs : List Job) : (s.setJobs jobs).settings = s.settings := rfl

@[simp] theorem State.setRecord_settings (ch : Chan) (r : Option ReadRecord) : (s.setRecord ch r).settings = s.settings := rfl

@[simp] theorem State.startLeakTimer_settings : s.startLeakTimer.settings = s.settings := rfl

/-! The links and the transmitters (R104 to R122). -/

@[simp] theorem State.sendCredit_settings (ch : Chan) (n : Nat) : (s.sendCredit ch n).settings = s.settings := by
  unfold State.sendCredit; split <;> simp

@[simp] theorem State.modCounters_settings (ch : Chan) (f : LinkCounters → LinkCounters) :
    (s.modCounters ch f).settings = s.settings := by simp [State.modCounters]

@[simp] theorem State.setLinkState_settings (ch : Chan) (st : LinkState) : (s.setLinkState ch st).settings = s.settings := by
  simp [State.setLinkState]

@[simp] theorem State.abandonRequests_settings (ch : Chan) (r : Option ReadResult) :
    (s.abandonRequests ch r).settings = s.settings := by
  simp [(s.abandonRequests_tables ch r).settings_kept]

@[simp] theorem State.departActive_settings (ch : Chan) (st : LinkState) : (s.departActive ch st).settings = s.settings := by
  simp [State.departActive]

@[simp] theorem State.enterSyncing_settings (ch : Chan) : (s.enterSyncing ch).settings = s.settings := by
  unfold State.enterSyncing; dsimp only; split <;> simp

@[simp] theorem State.goDown_settings (ch : Chan) : (s.goDown ch).settings = s.settings := by simp [State.goDown]

@[simp] theorem State.discardQueue_settings (ch : Chan) : (s.discardQueue ch).settings = s.settings := by
  simp [State.discardQueue]

@[simp] theorem State.attemptExpiry_settings (ch : Chan) : (s.attemptExpiry ch).settings = s.settings := by
  unfold State.attemptExpiry; split <;> simp

@[simp] theorem State.arriveSync_settings (ch : Chan) (seq : BitVec 8) : (s.arriveSync ch seq).settings = s.settings := by
  unfold State.arriveSync
  split
  · rfl
  · simp [State.syncInSyncing]
  · simp
  · simp [State.syncInActive]

@[simp] theorem State.arriveFailing_settings (ch : Chan) : (s.arriveFailing ch).settings = s.settings := by
  unfold State.arriveFailing
  dsimp only
  split
  · rfl
  · simp
  · simp
  · split <;> simp [State.failLink]

/-- A frame keeps the settings where what its kind does onward keeps them. -/
theorem State.arrive_settings (ch : Chan) (seq : BitVec 8) {onward : State → State}
    (h : ∀ t, (onward t).settings = t.settings) : (s.arrive ch seq onward).settings = s.settings := by
  unfold State.arrive
  split
  · rfl
  · simp
  · simp
  · unfold State.arriveActive
    dsimp only
    split <;> simp [h, State.takeSeq, State.countGap]

@[simp] theorem State.accept_settings (ch : Chan) : (s.accept ch).settings = s.settings := by simp [State.accept]

@[simp] theorem State.joinQueue_settings (ch : Chan) (r : Report) : (s.joinQueue ch r).settings = s.settings := by
  unfold State.joinQueue; split <;> simp

@[simp] theorem State.returnCredit_settings (ch : Chan) : (s.returnCredit ch).settings = s.settings := by
  unfold State.returnCredit
  split
  · dsimp only; split <;> simp
  · rfl

/-! The scrub engine (R129 to R145). -/

@[simp] theorem State.countSkipped_settings (ch : Chan) : (s.countSkipped ch).settings = s.settings := 
  s.modScrub_keeps ch _ rfl

@[simp] theorem State.freeTag_settings (ch : Chan) (tag : Tag) : (s.freeTag ch tag).settings = s.settings := 
  s.modScrub_keeps ch _ rfl

@[simp] theorem State.issueRequest_settings (ch : Chan) (tag : Tag) (kind : RequestKind) (rank : Rank) (bank : Bank) (row : Row) :
    (s.issueRequest ch tag kind rank bank row).settings = s.settings := 
  s.modScrub_keeps ch _ rfl

@[simp] theorem State.patrolStep_settings (ch : Chan) (tag : Tag) : (s.patrolStep ch tag).settings = s.settings := by
  unfold State.patrolStep
  dsimp only
  rw [apply_ite State.settings, State.setFlag_settings, ite_self, State.modScrub_keeps _ _ _ (Scrub.step_settings _ _)]
  split
  · exact s.modScrub_keeps ch _ rfl
  · simp

@[simp] theorem State.verifyStep_settings (ch : Chan) (tag : Tag) (j : Job) : (s.verifyStep ch tag j).settings = s.settings := by
  unfold State.verifyStep
  split
  · rfl
  · split <;> simp

@[simp] theorem State.issue_settings (ch : Chan) : (s.issue ch).settings = s.settings := by
  unfold State.issue
  split
  · split
    · rfl
    · split
      · simp
      · split <;> simp
  · rfl

@[simp] theorem State.replyExpiry_settings (ch : Chan) (tag : Tag) (q : Request) :
    (s.replyExpiry ch tag q).settings = s.settings := by
  have freed := s.modScrub_keeps ch (fun c => { c with
    tags := c.tags.set tag none
    timeoutRun := c.timeoutRun + 1
    counters := { c.counters with timeouts := satInc c.counters.timeouts } }) rfl
  unfold State.replyExpiry
  dsimp only
  split <;> split <;> simp [State.failLink, freed]

/-! The log, the classifier and the intake arbiter (R65 to R98). -/

@[simp] theorem State.modUe_settings (i : Nat) (f : UeRecord → UeRecord) : (s.modUe i f).settings = s.settings := rfl

@[simp] theorem State.removeUe_settings (i : Nat) : (s.removeUe i).settings = s.settings := rfl

@[simp] theorem State.handOver_settings (i : Nat) : (s.handOver i).settings = s.settings := rfl

@[simp] theorem State.escalate_settings (i : Nat) : (s.escalate i).settings = s.settings := by
  unfold State.escalate; dsimp only; split <;> simp

@[simp] theorem State.storeUe_settings (a : UeAppend) : (s.storeUe a).settings = s.settings := rfl

@[simp] theorem State.ueProposal_settings (a : UeAppend) (id : BitVec 8) : (s.ueProposal a id).settings = s.settings := by
  unfold State.ueProposal; split <;> simp

@[simp] theorem State.loseUe_settings (a : UeAppend) : (s.loseUe a).settings = s.settings := by
  unfold State.loseUe; dsimp only; split <;> simp

@[simp] theorem State.appendUe_settings (a : UeAppend) : (s.appendUe a).settings = s.settings := by
  unfold State.appendUe; split <;> simp

@[simp] theorem State.routeCorrected_settings (l : Loc) (cls : CeClass) (o : Origin) :
    (s.routeCorrected l cls o).settings = s.settings := by
  unfold State.routeCorrected; split <;> simp

@[simp] theorem State.routeUncorrectable_settings (l : Loc) (cls : UeClass) (o : Origin) :
    (s.routeUncorrectable l cls o).settings = s.settings := by simp [State.routeUncorrectable]

@[simp] theorem State.countMalformed_settings (ch : Chan) : (s.countMalformed ch).settings = s.settings := rfl

@[simp] theorem State.classifyError_settings (l : Loc) (cls : ErrClass) (o : Origin) :
    (s.classifyError l cls o).settings = s.settings := by
  unfold State.classifyError
  split
  · split <;> simp
  · simp

@[simp] theorem State.malformedReply_settings (ch : Chan) (r : ScrubReply) (q : Request) :
    (s.malformedReply ch r q).settings = s.settings := by
  unfold State.malformedReply; dsimp only; split <;> simp

@[simp] theorem State.patrolReply_settings (ch : Chan) (r : ScrubReply) (q : Request) :
    (s.patrolReply ch r q).settings = s.settings := by
  unfold State.patrolReply; split <;> simp

@[simp] theorem State.verifyReply_settings (ch : Chan) (r : ScrubReply) (q : Request) :
    (s.verifyReply ch r q).settings = s.settings := by
  unfold State.verifyReply; dsimp only; split <;> simp

@[simp] theorem State.classifyReply_settings (ch : Chan) (r : ScrubReply) : (s.classifyReply ch r).settings = s.settings := by
  unfold State.classifyReply
  split
  · simp
  · dsimp only
    split
    · simp
    · split <;> simp

@[simp] theorem State.classify_settings (ch : Chan) (r : Report) : (s.classify ch r).settings = s.settings := by
  unfold State.classify; split <;> simp

@[simp] theorem State.takeFrom_settings (ch : Chan) : (s.takeFrom ch).settings = s.settings := by
  unfold State.takeFrom; split <;> simp [State.serve]

@[simp] theorem State.takeSlot_settings : s.takeSlot.settings = s.settings := by
  unfold State.takeSlot; split <;> simp

@[simp] theorem State.take_settings : s.take.settings = s.settings := by
  unfold State.take; split <;> simp

/-! The clock, the engine and the resets (R11, R12, R60, R61, R165, R170, R176). -/

@[simp] theorem State.lowerMs_settings : s.lowerMs.settings = s.settings := by
  refine (State.setScrubs_map_settings _ Scrub.lowerMs fun _ => rfl).trans ?_
  refine (State.setLinks_map_settings _ Link.lowerMs fun _ => rfl).trans ?_
  rfl

@[simp] theorem State.complete_settings (p : Port) (code : ResultCode) (result : Pages) :
    (s.complete p code result).settings = s.settings := by simp [State.complete]

@[simp] theorem State.latch_settings (p : Port) : (s.latch p).settings = s.settings := by cases p <;> rfl

@[simp] theorem State.beginPurge_settings (i : RetIdx) : (s.beginPurge i).settings = s.settings := rfl

@[simp] theorem State.visit_settings (g : Purge) (i : CetIdx) : (s.visit g i).1.settings = s.settings := by
  unfold State.visit; split <;> simp

@[simp] theorem State.setPurge_settings (x : Option Purge) : (s.setEngine { s.engine with purge := x }).settings = s.settings :=
  rfl

@[simp] theorem State.endPurge_settings (g : Purge) (n : Nat) : (s.endPurge g n).settings = s.settings := by
  unfold State.endPurge; dsimp only; split <;> simp

@[simp] theorem State.purgeStep_settings (g : Purge) : (s.purgeStep g).settings = s.settings := by
  unfold State.purgeStep
  split
  · simp
  · dsimp only
    split <;> simp

@[simp] theorem State.clearCounters_settings (ch : Chan) : (s.clearCounters ch).settings = s.settings := by
  unfold State.clearCounters
  rw [State.setRetire_settings, State.setCet_settings, State.modScrub_keeps, State.modClassifier_settings,
    State.modCounters_settings] <;> rfl

@[simp] theorem State.emptyIntake_settings : s.emptyIntake.settings = s.settings := rfl

@[simp] theorem State.resyncAtReset_settings (ch : Chan) : (s.resyncAtReset ch).settings = s.settings := by
  unfold State.resyncAtReset; split <;> simp

/-- R126: the links that enter SYNCING one after another keep the settings. -/
theorem foldl_resyncAtReset_settings (chs : List Chan) : (chs.foldl State.resyncAtReset s).settings = s.settings := by
  induction chs generalizing s with
  | nil => rfl
  | cons ch rest ih => rw [List.foldl_cons, ih, State.resyncAtReset_settings]

@[simp] theorem State.softReset_settings : s.softReset.settings = s.settings := by
  refine (foldl_resyncAtReset_settings _ _).trans ?_
  refine (State.setScrubs_map_settings _ Scrub.softReset Scrub.softReset_settings).trans ?_
  simp

end

/-! ### What the body of each command may do to the settings -/

/-- Whatever its port and parameters, the body of a command does to the settings only what the command may. -/
def BodyStep (c : Instr) (body : Body) : Prop := ∀ p ps s, SettingsStep c s.settings (body p ps s).1.settings

section
variable {c : Instr} {s : State} {w : Word}

theorem withChannel_step {f : Chan → State × Answer} (h : ∀ ch, SettingsStep c s.settings (f ch).1.settings) :
    SettingsStep c s.settings (withChannel s w f).1.settings := by
  unfold withChannel
  split
  · exact .keep
  · exact h _

theorem withScrubChannel_step {f : Chan → State × Answer} (h : ∀ ch, SettingsStep c s.settings (f ch).1.settings) :
    SettingsStep c s.settings (withScrubChannel s w f).1.settings := by
  unfold withScrubChannel
  split
  · exact .keep
  · exact h _

theorem withCetIndex_step {f : CetIdx → State × Answer} (h : ∀ i, SettingsStep c s.settings (f i).1.settings) :
    SettingsStep c s.settings (withCetIndex s w f).1.settings := by
  unfold withCetIndex
  split
  · exact .keep
  · exact h _

theorem withCetEntry_step {f : CetIdx → CetEntry → State × Answer}
    (h : ∀ i e, SettingsStep c s.settings (f i e).1.settings) :
    SettingsStep c s.settings (withCetEntry s w f).1.settings := by
  refine withCetIndex_step fun i => ?_
  split
  · exact .keep
  · exact h _ _

theorem withRetIndex_step {f : RetIdx → State × Answer} (h : ∀ i, SettingsStep c s.settings (f i).1.settings) :
    SettingsStep c s.settings (withRetIndex s w f).1.settings := by
  unfold withRetIndex
  split
  · exact .keep
  · exact h _

theorem withRetEntry_step {needs : RetState} {f : RetIdx → RetEntry → State × Answer}
    (h : ∀ i e, SettingsStep c s.settings (f i e).1.settings) :
    SettingsStep c s.settings (withRetEntry s w needs f).1.settings := by
  refine withRetIndex_step fun i => ?_
  split
  · exact .keep
  · split
    · exact h _ _
    · exact .keep

/-! The commands with no setting of their own. -/

theorem bodyBadCommand_step : BodyStep c bodyBadCommand := fun _ _ _ => .keep

theorem bodyBadAction_step : BodyStep c bodyBadAction := fun _ _ _ => .keep

theorem bodyReadStatus_step : BodyStep c bodyReadStatus := fun _ _ _ => .keep

theorem bodyClearFatal_step : BodyStep c bodyClearFatal := fun _ _ s => .of_eq s.clearLatch_settings

theorem bodyEngineReset_step : BodyStep c bodyEngineReset := fun _ _ _ => .of_eq (by simp [bodyEngineReset])

theorem bodyLinkEnable_step : BodyStep c bodyLinkEnable := fun _ _ s => withChannel_step fun ch => by
  split
  · exact .of_eq (s.enterSyncing_settings ch)
  · exact .keep

theorem bodyLinkDisable_step : BodyStep c bodyLinkDisable := fun _ _ s => withChannel_step fun ch => by
  split
  · exact .keep
  · exact .of_eq (by simp)

theorem bodyResyncLink_step : BodyStep c bodyResyncLink := fun _ _ s => withChannel_step fun ch => by
  split
  · exact .of_eq (s.enterSyncing_settings ch)
  · exact .keep

theorem bodyReadCet_step : BodyStep c bodyReadCet := fun _ _ _ => withCetIndex_step fun _ => .keep

theorem bodyFindCet_step : BodyStep c bodyFindCet := fun _ ps s => by
  unfold bodyFindCet
  split
  · exact .keep
  · split
    · split <;> exact .keep
    · exact .keep

theorem bodyClearCetEntry_step : BodyStep c bodyClearCetEntry := fun _ _ s =>
  withCetEntry_step fun i _ => .of_eq (s.freeEntry_settings i _)

theorem bodyClearCetAll_step : BodyStep c bodyClearCetAll := fun _ _ s => .of_eq (s.freeAll_settings _ _)

theorem bodyPinCet_step : BodyStep c bodyPinCet := fun _ _ s => withCetEntry_step fun i _ => by
  split
  · exact .keep
  · split
    · exact .keep
    · exact .of_eq (s.modEntry_settings i _)

theorem bodyUnpinCet_step : BodyStep c bodyUnpinCet := fun _ _ s =>
  withCetEntry_step fun i _ => .of_eq (s.modEntry_settings i _)

theorem bodyStartVerify_step : BodyStep c bodyStartVerify := fun _ _ s => withCetEntry_step fun i e => by
  split
  · split
    · exact .of_eq (s.createJob_settings i e.key.channel)
    · exact .keep
  · exact .keep

theorem bodyReadRetire_step : BodyStep c bodyReadRetire := fun _ _ _ => withRetIndex_step fun _ => .keep

theorem bodyFindRetire_step : BodyStep c bodyFindRetire := fun _ ps s => by
  unfold bodyFindRetire
  split
  · exact .keep
  · split
    · split <;> exact .keep
    · exact .keep

theorem bodyAddRetire_step : BodyStep c bodyAddRetire := fun _ ps s => by
  unfold bodyAddRetire
  split
  · exact .keep
  · split
    · split
      · exact .keep
      · split
        · exact .keep
        · exact .of_eq (by simp)
    · exact .keep

theorem bodyConfirmRetire_step : BodyStep c bodyConfirmRetire := fun _ _ _ =>
  withRetEntry_step fun _ _ => .of_eq (by simp)

theorem bodyRejectRetire_step : BodyStep c bodyRejectRetire := fun _ _ _ => withRetEntry_step fun _ _ => by
  split <;> exact .of_eq (by simp)

theorem bodyRemoveRetire_step : BodyStep c bodyRemoveRetire := fun _ _ _ =>
  withRetEntry_step fun _ _ => .of_eq (by simp)

theorem bodyReadUe_step : BodyStep c bodyReadUe := fun _ ps s => by
  unfold bodyReadUe
  split
  · exact .keep
  · split <;> exact .keep

theorem bodyAckUe_step : BodyStep c bodyAckUe := fun p ps s => by
  unfold bodyAckUe
  dsimp only
  split
  · exact .keep
  · split
    · exact .keep
    · split
      · exact .keep
      · split
        · exact .of_eq (s.removeUe_settings _)
        · exact .keep

theorem bodyReadUeOverflow_step : BodyStep c bodyReadUeOverflow := fun _ ps s => by
  unfold bodyReadUeOverflow
  split
  · exact .keep
  · dsimp only
    split
    · exact .of_eq (s.setUel_settings _ rfl)
    · exact .keep

theorem bodyScrubStop_step : BodyStep c bodyScrubStop := fun _ _ s =>
  withScrubChannel_step fun ch => .of_eq (s.modScrub_keeps ch _ rfl)

theorem bodySetCursor_step : BodyStep c bodySetCursor := fun _ _ s => withScrubChannel_step fun ch => by
  split
  · exact .keep
  · split
    · split
      · exact .of_eq (s.modScrub_keeps ch _ rfl)
      · exact .keep
    · exact .keep

theorem bodyReadCounters_step : BodyStep c bodyReadCounters := fun _ _ s => withChannel_step fun ch => by
  split
  · exact .keep
  · dsimp only
    split
    · exact .of_eq (s.clearCounters_settings ch)
    · exact .keep

theorem bodyInjectReport_step : BodyStep c bodyInjectReport := fun _ ps s => by
  unfold bodyInjectReport
  split
  · split
    · exact .keep
    · exact .of_eq (s.setIntake_settings _ rfl)
  · exact .keep

end

/-! The commands with a setting of their own. -/

theorem bodyConfigureChannel_step : BodyStep .configureChannel bodyConfigureChannel := fun _ ps s =>
  withChannel_step fun ch => by
    dsimp only
    split
    · exact .keep
    · split
      · exact .keep
      · split
        · exact .keep
        · rw [State.modScrub_keeps _ _ _ (Scrub.fitCursor_settings _ _), State.modLink_settings]
          exact .configureChannel _ ch _

theorem PolicyWords.apply_settings (w : PolicyWords) (s : State) :
    ∃ x, (w.apply s).settings = { s.settings with tables := x } := by
  unfold PolicyWords.apply
  dsimp only
  split
  · exact ⟨_, rfl⟩
  · exact ⟨_, rfl⟩

theorem bodySetPolicy_step : BodyStep .setPolicy bodySetPolicy := fun _ ps s => by
  unfold bodySetPolicy
  dsimp only
  split
  · exact .keep
  · split
    · exact .keep
    · obtain ⟨x, hx⟩ := (policyWords ps).apply_settings s
      rw [hx]
      exact .setPolicy _ x

theorem bodySetAuthority_step : BodyStep .setAuthority bodySetAuthority := fun _ ps s => by
  unfold bodySetAuthority
  split
  · exact .keep
  · exact .setAuthority _ _

theorem bodySetServiceFirst_step : BodyStep .setServiceFirst bodySetServiceFirst := fun _ ps s => by
  unfold bodySetServiceFirst
  split
  · exact .keep
  · exact .setServiceFirst _ _

theorem bodyScrubStart_step : BodyStep .scrubStart bodyScrubStart := fun _ _ s => withScrubChannel_step fun ch => by
  split
  · exact .keep
  · split
    · simp only [State.okScrub, State.modScrub_settings]
      exact .scrubStart _ ch _
    · exact .keep

theorem bodySetPacing_step : BodyStep .setPacing bodySetPacing := fun _ _ s => withScrubChannel_step fun ch => by
  dsimp only
  split
  · simp only [State.okScrub, State.modScrub_settings]
    exact .setPacing _ ch _
  · exact .keep

theorem bodySetHoldPolicy_step : BodyStep .setHoldPolicy bodySetHoldPolicy := fun _ _ s => withScrubChannel_step fun ch => by
  dsimp only
  split
  · exact .keep
  · split
    · simp only [State.okScrub, State.modScrub_settings, Scrub.setHoldPolicy_settings]
      exact .setHoldPolicy _ ch _ _ _
    · exact .keep

theorem bodySetTimeout_step : BodyStep .setTimeout bodySetTimeout := fun _ _ s => withScrubChannel_step fun ch => by
  dsimp only
  split
  · simp only [State.okScrub, State.modScrub_settings]
    exact .setTimeout _ ch _
  · exact .keep

/-! ### What each command may do to the settings -/

/-- R184: while RST_N is asserted nothing happens, and otherwise the meaning decides. -/
theorem whileRunning_step {c : Instr} {s t : State} {f : State → State} (h : s.whileRunning f = .next t)
    (hf : SettingsStep c s.settings (f s).settings) : SettingsStep c s.settings t.settings := by
  cases hr : s.rst with
  | true => rw [State.whileRunning_held hr] at h; cases h; exact .keep
  | false => rw [State.whileRunning_running hr] at h; cases h; exact hf

/-- R164 to R166: the engine's part of a take and of a completion reaches no setting, so a take does what the body does. -/
theorem engineTake_step {c : Instr} {body : Body} (hb : BodyStep c body) (s : State) (names : Word → Table Word 6 → Bool)
    (a : Admission) : SettingsStep c s.settings (s.engineTake names a body).settings := by
  unfold State.engineTake
  split
  · exact .keep
  · next p _ =>
    split
    · unfold State.carryOut
      split
      · have step := hb p ((s.latch p).mail p).latched (s.latch p)
        rw [State.latch_settings] at step
        split <;> simp_all
      · exact .of_eq (by simp)
    · exact .keep

theorem command_step {c : Instr} {body : Body} {s t : State} {names : Word → Table Word 6 → Bool} {a : Admission}
    (h : s.whileRunning (fun s => s.engineTake names a body) = .next t) (hb : BodyStep c body) :
    SettingsStep c s.settings t.settings :=
  whileRunning_step h (engineTake_step hb s names a)

/-- An event whose meaning keeps the settings. -/
theorem event_step {c : Instr} {s t : State} {f : State → State} (h : s.whileRunning f = .next t)
    (hf : (f s).settings = s.settings) : SettingsStep c s.settings t.settings :=
  whileRunning_step h (.of_eq hf)

theorem lineMaskWrite_step (p : Port) (v : Word) (s : State) :
    SettingsStep (.lineMaskWrite p v) s.settings (s.setLineMask p v).settings := by
  cases p with
  | system => exact .systemMask _ v
  | service => exact .serviceMask _ v

theorem fullResetEnd_step {c : Instr} {s t : State} (h : execFullResetEnd s = .next t) :
    SettingsStep c s.settings t.settings := by
  cases h
  split
  · exact .of_eq (by simp)
  · exact .keep

theorem registerWriteIgnored_step {c : Instr} {s t : State} {p : Port} {index : Fin 64} {v : Word}
    (h : execRegisterWriteIgnored p index v s = .next t) : SettingsStep c s.settings t.settings := by
  unfold execRegisterWriteIgnored at h
  split at h
  · cases h; exact .keep
  · cases h

theorem unknownKindFrame_step {c : Instr} {s t : State} {ch : Chan} {seq : BitVec 8} {kind : Byte}
    (h : execUnknownKindFrame ch seq kind s = .next t) : SettingsStep c s.settings t.settings := by
  unfold execUnknownKindFrame at h
  split at h
  · cases h
  · exact event_step h (s.arrive_settings ch seq fun u => u.modCounters_settings ch _)

/-- Every command but FULL_RESET: it does to the settings only what `SettingsStep` names for it. -/
theorem exec_step {c : Instr} {s t : State} (h : exec c s = .next t) (hc : c ≠ .fullReset) :
    SettingsStep c s.settings t.settings := by
  unfold exec at h
  cases c with
  | fullReset => exact absurd rfl hc
  | fullResetEnd => exact fullResetEnd_step h
  | pacingBaseTick => exact event_step h (State.setScrubs_map_settings s _ fun _ => rfl)
  | eventClockAdvance => exact event_step h (by split <;> simp)
  | commandWrite | paramWrite | mailboxStatusWrite => exact event_step h (s.setMail_settings _ _)
  | result0Read => exact event_step h (by dsimp only; split <;> simp)
  | eventClearWrite p v => exact event_step h (s.clearFlags_settings v)
  | lineMaskWrite p v => exact whileRunning_step h (lineMaskWrite_step p v s)
  | registerWriteIgnored => exact registerWriteIgnored_step h
  | badCommand => exact command_step h bodyBadCommand_step
  | configureChannel => exact command_step h bodyConfigureChannel_step
  | linkEnable => exact command_step h bodyLinkEnable_step
  | linkDisable => exact command_step h bodyLinkDisable_step
  | resyncLink => exact command_step h bodyResyncLink_step
  | setPolicy => exact command_step h bodySetPolicy_step
  | readCet => exact command_step h bodyReadCet_step
  | findCet => exact command_step h bodyFindCet_step
  | clearCetEntry => exact command_step h bodyClearCetEntry_step
  | clearCetAll => exact command_step h bodyClearCetAll_step
  | pinCet => exact command_step h bodyPinCet_step
  | unpinCet => exact command_step h bodyUnpinCet_step
  | startVerify => exact command_step h bodyStartVerify_step
  | readRetire => exact command_step h bodyReadRetire_step
  | findRetire => exact command_step h bodyFindRetire_step
  | addRetire => exact command_step h bodyAddRetire_step
  | confirmRetire => exact command_step h bodyConfirmRetire_step
  | rejectRetire => exact command_step h bodyRejectRetire_step
  | removeRetire => exact command_step h bodyRemoveRetire_step
  | readUe => exact command_step h bodyReadUe_step
  | ackUe => exact command_step h bodyAckUe_step
  | readUeOverflow => exact command_step h bodyReadUeOverflow_step
  | scrubStart => exact command_step h bodyScrubStart_step
  | scrubStop => exact command_step h bodyScrubStop_step
  | setCursor => exact command_step h bodySetCursor_step
  | setPacing => exact command_step h bodySetPacing_step
  | setHoldPolicy => exact command_step h bodySetHoldPolicy_step
  | setTimeout => exact command_step h bodySetTimeout_step
  | readCounters => exact command_step h bodyReadCounters_step
  | injectReport => exact command_step h bodyInjectReport_step
  | readStatus => exact command_step h bodyReadStatus_step
  | setAuthority => exact command_step h bodySetAuthority_step
  | setServiceFirst => exact command_step h bodySetServiceFirst_step
  | clearFatal => exact command_step h bodyClearFatal_step
  | engineReset => exact command_step h bodyEngineReset_step
  | scrubControlBadAction => exact command_step h bodyBadAction_step
  | purgeVisit => exact event_step h (by split <;> simp)
  | error ch seq | scrubReply ch seq => exact event_step h (s.arrive_settings ch seq fun _ => by simp)
  | hold ch seq | resume ch seq => exact event_step h (s.arrive_settings ch seq fun _ => by simp)
  | sync ch seq => exact event_step h (s.arriveSync_settings ch seq)
  | unknownKindFrame => exact unknownKindFrame_step h
  | frameCheckFailure ch => exact event_step h (s.arriveFailing_settings ch)
  | syncAttemptExpiry ch => exact event_step h (by split <;> simp)
  | frameTransmission ch => exact event_step h (by split <;> simp)
  | frameTransmissionEnd ch => exact event_step h (s.modTx_settings ch _)
  | intakeTake => exact event_step h s.take_settings
  | issueEvent ch => exact event_step h (s.issue_settings ch)
  | pacingExpiry ch =>
    refine event_step h ?_
    split
    · exact s.modScrub_keeps ch _ rfl
    · rfl
  | replyTimeout ch tag =>
    refine event_step h ?_
    split
    · rfl
    · split <;> simp
  | holdCeilingExpiry ch => exact event_step h (by split <;> simp)
  | systemWindowExpiry | serviceWindowExpiry => exact event_step h (by split <;> simp)
  | leakExpiry => exact event_step h (by split <;> simp)

/-- Settles O55: each command leaves every setting but its own as it was, by what each command may do to the settings. -/
theorem settingsChangeByTheirCommands : Obligations.SettingsChangeByTheirCommands := by
  unfold Obligations.SettingsChangeByTheirCommands
  intro c s t h hc
  have step := exec_step h hc
  refine ⟨fun h ch => congrFun (step.geometry_kept h) ch, step.authority_kept, step.serviceFirst_kept, step.irqMask_kept,
    step.alertMask_kept, fun h => ?_, fun ch => ⟨fun h => step.mode_kept h ch, fun h => step.pacing_kept h ch, fun h => ?_,
      fun h => step.replyTimeout_kept h ch⟩⟩
  · have tables := step.tables_kept h
    simpa [State.settings] using tables
  · have hold := step.hold_kept h ch
    simpa [State.settings, Scrub.settings, ScrubSettings.hold] using hold

end Sys2Proof.Machine

/-! What the free of a CET entry, the leak and a clear of the whole table leave (R28, R29, R37). -/

namespace Sys2Proof.Machine

/-! ### Changes of verify statuses alone -/

/-- R31: of the two tables only verify statuses of CET entries differ. -/
structure StatusOnly (s t : State) : Prop where
  entries : ∀ i, (t.entry i).map CetEntry.still = (s.entry i).map CetEntry.still
  cet     : t.cet = { s.cet with entries := t.cet.entries }
  retire  : t.retire = s.retire

theorem StatusOnly.refl (s : State) : StatusOnly s s := ⟨fun _ => rfl, rfl, rfl⟩

theorem StatusOnly.trans {s t u : State} (h : StatusOnly s t) (k : StatusOnly t u) : StatusOnly s u where
  entries := fun i => (k.entries i).trans (h.entries i)
  cet     := by rw [k.cet, h.cet]
  retire  := k.retire.trans h.retire

theorem StatusOnly.of_eq {s t : State} (hc : t.cet = s.cet) (hr : t.retire = s.retire) : StatusOnly s t :=
  ⟨fun i => by rw [State.entry, State.entry, hc], by rw [hc], hr⟩

theorem StatusOnly.isSome {s t : State} (h : StatusOnly s t) (i : CetIdx) : (t.entry i).isSome = (s.entry i).isSome := by
  simpa using congrArg Option.isSome (h.entries i)

theorem StatusOnly.eq_none {s t : State} (h : StatusOnly s t) {i : CetIdx} (hn : s.entry i = none) : t.entry i = none := by
  simpa [hn] using h.entries i

/-- A valid entry stays valid, and differs by its verify status alone. -/
theorem StatusOnly.eq_some {s t : State} (h : StatusOnly s t) {i : CetIdx} {e : CetEntry} (he : s.entry i = some e) :
    ∃ v, t.entry i = some { e with status := v } := by
  have still := h.entries i
  rw [he, Option.map_some, Option.map_eq_some_iff] at still
  obtain ⟨f, hf, hs⟩ := still
  refine ⟨f.status, ?_⟩
  cases f
  cases e
  simp_all [CetEntry.still]

theorem Cet.occupancy_eq (s : State) : s.cet.occupancy = (List.finRange 128).countP (fun i => (s.entry i).isSome) :=
  Table.count_eq _ _

theorem StatusOnly.occupancy {s t : State} (h : StatusOnly s t) : t.cet.occupancy = s.cet.occupancy := by
  simp only [Cet.occupancy_eq, h.isSome]

theorem State.setStatus_statusOnly (s : State) (i : CetIdx) (v : VerifyStatus) : StatusOnly s (s.setStatus i v) :=
  ⟨fun j => s.setStatus_still i j v, rfl, rfl⟩

theorem makeHead_statusOnly (jobs : List Job) (s : State) : StatusOnly s (makeHead jobs s) := by
  obtain ⟨entries, retire, -⟩ := makeHead_kept jobs s
  exact ⟨entries, (makeHead_headChange jobs s).cet, retire⟩

theorem State.abortJob_statusOnly (s : State) (r : AbortReason) (i : CetIdx) : StatusOnly s (s.abortJob r i) := by
  unfold State.abortJob
  split
  · exact .refl s
  · split
    · refine StatusOnly.trans ?_ (makeHead_statusOnly _ _)
      exact (s.setStatus_statusOnly i .idle).trans (.of_eq rfl rfl)
    · split
      · exact (s.setStatus_statusOnly i .idle).trans (.of_eq rfl rfl)
      · exact .refl s

theorem State.abortRunningOn_statusOnly (s : State) (ch : Chan) : StatusOnly s (s.abortRunningOn ch) := by
  unfold State.abortRunningOn
  split
  · exact .refl s
  · split
    · exact s.abortJob_statusOnly _ _
    · exact .refl s

theorem State.createJob_statusOnly (s : State) (i : CetIdx) (ch : Chan) : StatusOnly s (s.createJob i ch) := by
  unfold State.createJob
  dsimp only
  split
  · exact (s.setStatus_statusOnly i .queued).trans (makeHead_statusOnly _ _)
  · exact (s.setStatus_statusOnly i .queued).trans (.of_eq rfl rfl)

/-! ### The free of an entry -/

/-- R28: the two tables after the free of an entry that has no verify job. -/
def State.freed (s : State) (i : CetIdx) : State := { s with
  cet := { s.cet with entries := s.cet.entries.set i none, generation := s.cet.generation + 1 }
  retire := { s.retire with entries := s.retire.entries.map (fun a => a.map (fun a => a.without i)) } }

theorem State.freed_entry (s : State) (i j : CetIdx) : (s.freed i).entry j = if j = i then none else s.entry j :=
  Table.get_set _ _ _ _

theorem State.freed_retired (s : State) (i : CetIdx) (k : RetIdx) :
    (s.freed i).retired k = (s.retired k).map (fun a => a.without i) :=
  Table.get_map _ _ _

theorem State.freed_occupancy {s : State} {i : CetIdx} (h : (s.entry i).isSome = true) :
    (s.freed i).cet.occupancy + 1 = s.cet.occupancy := by
  have count := Table.count_set s.cet.entries Option.isSome i none
  rw [show s.cet.entries.get i = s.entry i from rfl, h] at count
  exact count

theorem StatusOnly.freed {s t : State} (h : StatusOnly s t) (i : CetIdx) : StatusOnly (s.freed i) (t.freed i) where
  entries := fun j => by
    rw [State.freed_entry, State.freed_entry]
    split
    · rfl
    · exact h.entries j
  cet     := by simp only [State.freed]; rw [h.cet]
  retire  := by simp only [State.freed]; rw [h.retire]

/-- R28: a free without a job, or for a cause that aborts none. -/
theorem State.freeEntry_eq_freed {s : State} {i : CetIdx} {e : CetEntry} {reason : Option AbortReason}
    (he : s.entry i = some e) (h : reason = none ∨ e.status = .idle) : s.freeEntry i reason = s.freed i := by
  unfold State.freeEntry
  rw [he]
  cases reason with
  | none => rfl
  | some r => simp only [show e.status = .idle by simpa using h, if_true]; rfl

/-- R28, R156: a free of an entry that has a job. -/
theorem State.freeEntry_eq_abort {s : State} {i : CetIdx} {e : CetEntry} (r : AbortReason) (he : s.entry i = some e)
    (h : e.status ≠ .idle) :
    s.freeEntry i (some r) = (((s.setEntry i none).bumpGeneration).abortJob r i).dropEvidence i := by
  unfold State.freeEntry
  simp only [he, h, if_false]

theorem State.freeEntry_of_none {s : State} {i : CetIdx} (h : s.entry i = none) (reason : Option AbortReason) :
    s.freeEntry i reason = s := by
  unfold State.freeEntry
  rw [h]

/-- R28: for every cause, a free does to the tables what it does for an entry without a job, apart from verify statuses. -/
theorem State.freeEntry_statusOnly {s : State} {i : CetIdx} {e : CetEntry} (he : s.entry i = some e)
    (reason : Option AbortReason) : StatusOnly (s.freed i) (s.freeEntry i reason) := by
  by_cases h : reason = none ∨ e.status = .idle
  · rw [State.freeEntry_eq_freed he h]
    exact .refl _
  · push Not at h
    obtain ⟨hr, hs⟩ := h
    obtain ⟨r, rfl⟩ := Option.ne_none_iff_exists'.mp hr
    rw [State.freeEntry_eq_abort r he hs]
    have aborted := ((s.setEntry i none).bumpGeneration).abortJob_statusOnly r i
    exact ⟨aborted.entries, aborted.cet, by simp only [State.dropEvidence, State.setRetire_retire, aborted.retire]; rfl⟩

/-! ### The abort of a job -/

/-- R156: the abort of the head job. -/
theorem State.abortJob_head {s : State} {j : Job} {rest : List Job} (r : AbortReason) (hj : s.verify.jobs = j :: rest) :
    s.abortJob r j.cet =
      makeHead rest ((((s.setJobs rest).setStatus j.cet .idle).orphanRecord j.channel).noteAbort r j.cet) := by
  simp [State.abortJob, hj]

/-- R156: the abort of a job behind the head. -/
theorem State.abortJob_tail {s : State} {j : Job} {rest : List Job} {i : CetIdx} (r : AbortReason)
    (hj : s.verify.jobs = j :: rest) (hne : j.cet ≠ i) (hi : i ∈ rest.map Job.cet) :
    s.abortJob r i = ((s.setJobs (j :: rest.filter (fun k => k.cet != i))).setStatus i .idle).noteAbort r i := by
  have : rest.any (fun k => k.cet == i) = true := by simpa using hi
  simp [State.abortJob, hj, hne, this]

theorem State.abortJob_of_not_mem {s : State} {i : CetIdx} (r : AbortReason) (hi : i ∉ s.verify.jobs.map Job.cet) :
    s.abortJob r i = s := by
  unfold State.abortJob
  split
  · rfl
  · next j rest hj =>
    rw [hj, List.map_cons, List.mem_cons, not_or] at hi
    obtain ⟨hh, ht⟩ := hi
    have : rest.any (fun k => k.cet == i) = false := by simpa using ht
    simp [Ne.symm hh, this]

/-- R156: no job of the entry is left. -/
theorem State.abortJob_not_mem {s : State} (r : AbortReason) (i : CetIdx) (hn : (s.verify.jobs.map Job.cet).Nodup) :
    i ∉ (s.abortJob r i).verify.jobs.map Job.cet := by
  by_cases hi : i ∈ s.verify.jobs.map Job.cet
  · cases hj : s.verify.jobs with
    | nil => simp [hj] at hi
    | cons j rest =>
      rw [hj, List.map_cons, List.nodup_cons] at hn
      by_cases hh : j.cet = i
      · subst hh
        rw [State.abortJob_head r hj]
        exact fun hm => hn.1 ((makeHead_jobs _ _).mem hm)
      · rw [State.abortJob_tail r hj hh (by simpa [hj, Ne.symm hh] using hi)]
        simp [State.noteAbort, State.setFlag, State.setStatus, State.modEntry, State.setEntry, State.setJobs, Ne.symm hh]
  · rwa [State.abortJob_of_not_mem r hi]

/-- R156 step 5. -/
theorem State.abortJob_flagged {s : State} (r : AbortReason) {i : CetIdx} (hi : i ∈ s.verify.jobs.map Job.cet) :
    (s.abortJob r i).flagged .verifyAborted = true := by
  cases hj : s.verify.jobs with
  | nil => simp [hj] at hi
  | cons j rest =>
    by_cases hh : j.cet = i
    · subst hh
      rw [State.abortJob_head r hj]
      exact (makeHead_tables _ _).flagged (by simp [State.noteAbort, State.flagged_setFlag])
    · rw [State.abortJob_tail r hj hh (by simpa [hj, Ne.symm hh] using hi)]
      simp [State.noteAbort, State.flagged_setFlag]

/-- R31: an entry is IDLE exactly when it has no job. -/
theorem State.QueueLaw.idle_iff {s : State} (h : s.QueueLaw) {i : CetIdx} {e : CetEntry} (he : s.entry i = some e) :
    e.status = .idle ↔ i ∉ s.verify.jobs.map Job.cet := by
  obtain ⟨-, -, -, hs, -⟩ := h
  obtain ⟨running, queued⟩ := hs i e he
  cases hj : s.verify.jobs with
  | nil =>
    rw [hj] at running queued
    cases hv : e.status <;> simp_all
  | cons j rest =>
    simp only [hj, List.head?_cons, Option.map_some, Option.some.injEq, List.tail_cons] at running queued
    rw [List.map_cons, List.mem_cons, not_or, ← queued, eq_comm (a := i), ← running]
    cases e.status <;> simp

/-- Settles O42: a free does to the tables what it does without a job, apart from verify statuses, and its abort takes the job of the
entry out of the queue. -/
theorem freeOfAnEntry : Obligations.FreeOfAnEntry := by
  unfold Obligations.FreeOfAnEntry
  refine ⟨fun i e reason s law he => ?_, fun i e reason s he hi => State.freeEntry_eq_freed he (.inr hi)⟩
  have still := State.freeEntry_statusOnly he (some reason)
  have tables := s.freeEntry_tables i (some reason)
  have idle := law.idle_iff he
  refine ⟨still.eq_none (by simp [State.freed_entry]), ?_, ?_, fun j hj => ?_, fun k => ?_, ?_, fun hs => ?_, fun hs => ?_,
    fun hs => ?_, tables.links, tables.queues, tables.scrubs, tables.txs, tables.uel, tables.engine⟩
  · rw [still.cet]; rfl
  · rw [still.occupancy, State.freed_occupancy (by simp [he])]
  · have := still.entries j
    rwa [State.freed_entry, if_neg hj] at this
  · rw [State.retired, still.retire]; exact s.freed_retired i k
  · by_cases hs : e.status = .idle
    · rw [State.freeEntry_eq_freed he (.inr hs)]; exact idle.mp hs
    · rw [State.freeEntry_eq_abort reason he hs]
      exact State.abortJob_not_mem (s := (s.setEntry i none).bumpGeneration) reason i law.2.1
  · rw [State.freeEntry_eq_abort reason he hs]
    exact State.abortJob_flagged (s := (s.setEntry i none).bumpGeneration) reason (not_not.mp (mt idle.mpr hs))
  · rw [State.freeEntry_eq_freed he (.inr hs)]; exact ⟨rfl, rfl⟩
  · obtain ⟨-, -, -, statuses, -⟩ := law
    obtain ⟨running, queued⟩ := statuses i e he
    have behind := queued.mp hs
    rw [State.freeEntry_eq_abort reason he (by simp [hs])]
    cases hj : s.verify.jobs with
    | nil => simp [hj] at behind
    | cons j rest =>
      have hh : j.cet ≠ i := fun h => by simp [hs, hj, h] at running
      rw [State.abortJob_tail (s := (s.setEntry i none).bumpGeneration) reason hj hh (by simpa [hj] using behind)]
      rfl

end Sys2Proof.Machine

/-! The leak and the clear of the whole table (R29, R37). -/

namespace Sys2Proof.Machine

/-! ### The free of several entries -/

/-- R28: the entries at the indices given freed in order, none of them with a verify job. -/
def State.freedAll (s : State) (is : List CetIdx) : State := is.foldl State.freed s

theorem State.freedAll_entry (s : State) (is : List CetIdx) (k : CetIdx) :
    (s.freedAll is).entry k = if k ∈ is then none else s.entry k := by
  induction is generalizing s with
  | nil => rfl
  | cons i is ih =>
    rw [show s.freedAll (i :: is) = (s.freed i).freedAll is from rfl, ih, State.freed_entry]
    by_cases hk : k = i <;> simp [hk]

/-- R28: a retirement entry loses the evidence that any of the indices was. -/
theorem State.freedAll_retired (s : State) (is : List CetIdx) (k : RetIdx) :
    (s.freedAll is).retired k = (s.retired k).map (fun a =>
      if ∃ i ∈ is, a.evidence = some (.cet i) then { a with evidence := none } else a) := by
  induction is generalizing s with
  | nil => simp [State.freedAll]
  | cons i is ih =>
    rw [show s.freedAll (i :: is) = (s.freed i).freedAll is from rfl, ih, State.freed_retired, Option.map_map]
    refine congrArg (Option.map · (s.retired k)) (funext fun a => ?_)
    by_cases ha : a.evidence = some (.cet i) <;> simp [RetEntry.without, ha]

theorem State.freedAll_generation (s : State) (is : List CetIdx) :
    (s.freedAll is).cet.generation = s.cet.generation + BitVec.ofNat 16 is.length := by
  induction is generalizing s with
  | nil => simp [State.freedAll]
  | cons i is ih =>
    rw [show s.freedAll (i :: is) = (s.freed i).freedAll is from rfl, ih, List.length_cons, BitVec.ofNat_add,
      show (s.freed i).cet.generation = s.cet.generation + 1 from rfl]
    ac_rfl

theorem State.freedAll_occupancy {s : State} {is : List CetIdx} (hn : is.Nodup) (hv : ∀ i ∈ is, (s.entry i).isSome = true) :
    (s.freedAll is).cet.occupancy + is.length = s.cet.occupancy := by
  induction is generalizing s with
  | nil => rfl
  | cons i is ih =>
    rw [List.nodup_cons] at hn
    obtain ⟨hi, hn⟩ := hn
    have rest := ih (s := s.freed i) hn fun k hk => by
      rw [State.freed_entry, if_neg (ne_of_mem_of_not_mem hk hi)]
      exact hv k (List.mem_cons_of_mem i hk)
    have first := State.freed_occupancy (hv i List.mem_cons_self)
    rw [show s.freedAll (i :: is) = (s.freed i).freedAll is from rfl, List.length_cons]
    omega

/-- The free of several entries changes the entries, the generation count and the list alone. -/
theorem State.freedAll_frame (s : State) (is : List CetIdx) : s.freedAll is = { s with
    cet := { s.cet with entries := (s.freedAll is).cet.entries, generation := (s.freedAll is).cet.generation }
    retire := { s.retire with entries := (s.freedAll is).retire.entries } } := by
  induction is generalizing s with
  | nil => rfl
  | cons i is ih =>
    rw [show s.freedAll (i :: is) = (s.freed i).freedAll is from rfl]
    conv_lhs => rw [ih]
    rfl

theorem StatusOnly.freedAll {s t : State} (h : StatusOnly s t) (is : List CetIdx) :
    StatusOnly (s.freedAll is) (t.freedAll is) := by
  induction is generalizing s t with
  | nil => exact h
  | cons i is ih => exact ih (h.freed i)

/-- R28: for every cause, valid entries that are freed in order leave the tables as if none had a job, apart from verify statuses. -/
theorem State.freeAll_statusOnly {s : State} {is : List CetIdx} (hn : is.Nodup) (hv : ∀ i ∈ is, (s.entry i).isSome = true)
    (reason : Option AbortReason) : StatusOnly (s.freedAll is) (s.freeAll is reason) := by
  induction is generalizing s with
  | nil => exact .refl s
  | cons i is ih =>
    rw [List.nodup_cons] at hn
    obtain ⟨hi, hn⟩ := hn
    obtain ⟨e, he⟩ := Option.isSome_iff_exists.mp (hv i List.mem_cons_self)
    have first := State.freeEntry_statusOnly he reason
    refine (first.freedAll is).trans (ih hn fun k hk => ?_)
    rw [first.isSome, State.freed_entry, if_neg (ne_of_mem_of_not_mem hk hi)]
    exact hv k (List.mem_cons_of_mem i hk)

/-- R29: frees without a reason abort no job. -/
theorem State.freeAll_none {s : State} {is : List CetIdx} (hn : is.Nodup) (hv : ∀ i ∈ is, (s.entry i).isSome = true) :
    s.freeAll is none = s.freedAll is := by
  induction is generalizing s with
  | nil => rfl
  | cons i is ih =>
    rw [List.nodup_cons] at hn
    obtain ⟨hi, hn⟩ := hn
    obtain ⟨e, he⟩ := Option.isSome_iff_exists.mp (hv i List.mem_cons_self)
    rw [show s.freeAll (i :: is) none = (s.freeEntry i none).freeAll is none from rfl, State.freeEntry_eq_freed he (.inl rfl)]
    refine ih hn fun k hk => ?_
    rw [State.freed_entry, if_neg (ne_of_mem_of_not_mem hk hi)]
    exact hv k (List.mem_cons_of_mem i hk)

/-! ### The leak -/

theorem CetEntry.ordinary_iff (e : CetEntry) : e.ordinary = true ↔ e.Eligible := by
  simp [CetEntry.ordinary, CetEntry.Eligible, and_assoc]

theorem State.mem_drained {s : State} {i : CetIdx} :
    i ∈ s.drained ↔ ∃ e, s.entry i = some e ∧ e.Eligible ∧ e.count ≤ 1 := by
  simp [State.drained, Option.any_eq_true, CetEntry.ordinary_iff]

theorem State.nodup_drained (s : State) : s.drained.Nodup := (List.nodup_finRange 128).filter _

/-- R29: the drained entries are those that the leak leaves free. -/
theorem State.mem_drained_iff_leaked {s : State} {i : CetIdx} :
    i ∈ s.drained ↔ (s.entry i).isSome = true ∧ (leaked (s.entry i)).isSome = false := by
  rw [State.mem_drained]
  cases s.entry i with
  | none => simp
  | some e =>
    by_cases he : e.Eligible
    · by_cases hc : e.count ≤ 1 <;> simp [leaked, he, hc, show e.state = .tracking ∧ _ from he]
    · simp [leaked, he, show ¬(e.state = .tracking ∧ e.pinned = false ∧ e.status = .idle) from he]

/-- R29: the table with the count of every ordinary entry lowered, none freed yet. -/
def State.lowered (s : State) : State := s.setCet { s.cet with entries := s.cet.entries.map (fun e => e.map CetEntry.leak) }

theorem State.lowered_entry (s : State) (i : CetIdx) : s.lowered.entry i = (s.entry i).map CetEntry.leak :=
  Table.get_map _ _ _

theorem State.leakTable_eq (s : State) : s.leakTable = s.lowered.freedAll s.drained := by
  refine State.freeAll_none s.nodup_drained fun i hi => ?_
  obtain ⟨e, he, -⟩ := State.mem_drained.mp hi
  simp [State.entry, show s.cet.entries.get i = some e from he]

theorem State.leakTable_entry (s : State) (i : CetIdx) : s.leakTable.entry i = leaked (s.entry i) := by
  rw [State.leakTable_eq, State.freedAll_entry, State.lowered_entry]
  cases he : s.entry i with
  | none => simp [leaked]
  | some e =>
    by_cases hd : i ∈ s.drained
    · obtain ⟨f, hf, elig, hc⟩ := State.mem_drained.mp hd
      rw [he, Option.some.injEq] at hf
      subst hf
      simp [hd, leaked, hc, show e.state = .tracking ∧ _ from elig]
    · rw [if_neg hd, Option.map_some, CetEntry.leak]
      by_cases elig : e.Eligible
      · have hc : ¬e.count ≤ 1 := fun hc => hd (State.mem_drained.mpr ⟨e, he, elig, hc⟩)
        simp [leaked, hc, e.ordinary_iff.mpr elig, show e.state = .tracking ∧ _ from elig]
      · simp [leaked, mt e.ordinary_iff.mp elig, show ¬(e.state = .tracking ∧ e.pinned = false ∧ e.status = .idle) from elig]

theorem State.leakTable_entries (s : State) : s.leakTable.cet.entries = s.cet.entries.map leaked :=
  Table.ext_get fun i => (s.leakTable_entry i).trans (Table.get_map _ _ _).symm

theorem State.leakTable_frame (s : State) : s.leakTable = { s with
    cet := { s.cet with entries := s.leakTable.cet.entries, generation := s.leakTable.cet.generation }
    retire := { s.retire with entries := s.leakTable.retire.entries } } := by
  rw [State.leakTable_eq]
  conv_lhs => rw [State.freedAll_frame]
  rfl

/-- R29: the generation count advances by the number of entries freed. -/
theorem State.leakTable_generation (s : State) : s.leakTable.cet.generation =
    s.cet.generation + BitVec.ofNat 16 (s.cet.occupancy - s.leakTable.cet.occupancy) := by
  have drained : ∀ i ∈ s.drained, (s.lowered.entry i).isSome = true := fun i hi => by
    obtain ⟨e, he, -⟩ := State.mem_drained.mp hi
    simp [State.lowered_entry, he]
  have freed := State.freedAll_occupancy s.nodup_drained drained
  have lowered : s.lowered.cet.occupancy = s.cet.occupancy := by
    simp [Cet.occupancy_eq, State.lowered_entry]
  rw [State.leakTable_eq, State.freedAll_generation]
  rw [show s.lowered.cet.generation = s.cet.generation from rfl]
  congr 2
  omega

theorem State.leakTable_retired (s : State) (k : RetIdx) : s.leakTable.retired k = (s.retired k).map (fun a =>
    if ∃ i, a.evidence = some (.cet i) ∧ (s.entry i).isSome = true ∧ (s.leakTable.entry i).isSome = false
    then { a with evidence := none } else a) := by
  simp only [State.leakTable_entry, ← State.mem_drained_iff_leaked]
  rw [State.leakTable_eq, State.freedAll_retired]
  simp only [and_comm]
  rfl

/-- Settles O43: the drained entries are freed without a job, and the timer starts again. -/
theorem leakExpiryDrainsTable : Obligations.LeakExpiryDrainsTable := by
  unfold Obligations.LeakExpiryDrainsTable
  intro s running
  have taken (ht : s.cet.leakTimer = some 0) : exec .leakExpiry s = .next s.leakTable.startLeakTimer := by
    simp [exec, execLeakExpiry, State.whileRunning_running running, ht, Timer.expired]
  refine ⟨fun ht => ⟨_, taken ht, ?_, s.leakTable_generation, s.leakTable_retired⟩, fun ht => ?_⟩
  · conv_lhs => rw [State.leakTable_frame, State.leakTable_entries]
    simp [State.startLeakTimer, Timer.ofSetting, Config.msPerSecond, State.setCet]
  · simp [exec, execLeakExpiry, State.whileRunning_running running, ht, Timer.expired]

/-! ### The jobs of entries that are freed -/

/-- R31, R147: at most one job waits for each entry, and every job has a valid entry that is not IDLE. -/
def State.JobsHeld (s : State) : Prop :=
  (s.verify.jobs.map Job.cet).Nodup ∧ ∀ j ∈ s.verify.jobs, ∃ e, s.entry j.cet = some e ∧ e.status ≠ .idle

theorem State.QueueLaw.jobsHeld {s : State} (h : s.QueueLaw) : s.JobsHeld := by
  refine ⟨h.2.1, fun j hj => ?_⟩
  obtain ⟨e, he, -⟩ := h.2.2.1 j hj
  exact ⟨e, he, fun hs => (h.idle_iff he).mp hs (List.mem_map_of_mem hj)⟩

theorem makeHead_jobsHeld {jobs : List Job} {s : State} (hn : (jobs.map Job.cet).Nodup)
    (hv : ∀ j ∈ jobs, ∃ e, s.entry j.cet = some e ∧ e.status ≠ .idle) : (makeHead jobs s).JobsHeld := by
  induction jobs generalizing s with
  | nil => exact ⟨List.nodup_nil, fun j hj => by cases hj⟩
  | cons j rest ih =>
    have hnd := List.nodup_cons.mp hn
    have other (v : VerifyStatus) : ∀ k ∈ rest, (s.setStatus j.cet v).entry k.cet = s.entry k.cet := fun k hk => by
      have : k.cet ≠ j.cet := fun h => hnd.1 (h ▸ List.mem_map_of_mem hk)
      simp [State.entry_setStatus, this]
    unfold makeHead
    split
    · refine ⟨hn, fun k hk => ?_⟩
      rcases List.mem_cons.mp hk with rfl | hk
      · obtain ⟨e, he, -⟩ := hv j List.mem_cons_self
        exact ⟨{ e with status := .running }, (s.entry_setStatus _ _ _).trans (by simp [he]), by simp⟩
      · obtain ⟨e, he, hs⟩ := hv k (List.mem_cons_of_mem j hk)
        exact ⟨e, (other .running k hk).trans he, hs⟩
    · refine ih (s := (s.setStatus j.cet .idle).noteAbort .link j.cet) hnd.2 fun k hk => ?_
      obtain ⟨e, he, hs⟩ := hv k (List.mem_cons_of_mem j hk)
      exact ⟨e, (other .idle k hk).trans he, hs⟩

/-- R156: an abort takes the job of the entry, whatever the entry is by then, and leaves the entries of the others not IDLE. -/
theorem State.abortJob_jobsHeld {s : State} (r : AbortReason) {i : CetIdx} (hn : (s.verify.jobs.map Job.cet).Nodup)
    (hv : ∀ j ∈ s.verify.jobs, j.cet ≠ i → ∃ e, s.entry j.cet = some e ∧ e.status ≠ .idle) : (s.abortJob r i).JobsHeld := by
  by_cases hi : i ∈ s.verify.jobs.map Job.cet
  · have other {k : Job} (hk : k.cet ≠ i) : (s.setStatus i .idle).entry k.cet = s.entry k.cet := by
      simp [State.entry_setStatus, hk]
    cases hj : s.verify.jobs with
    | nil => simp [hj] at hi
    | cons j rest =>
      rw [hj] at hn hv
      by_cases hh : j.cet = i
      · subst hh
        rw [State.abortJob_head r hj]
        refine makeHead_jobsHeld hn.of_cons fun k hk => ?_
        have hk' : k.cet ≠ j.cet := fun h => (List.nodup_cons.mp hn).1 (h ▸ List.mem_map_of_mem hk)
        obtain ⟨e, he, hs⟩ := hv k (List.mem_cons_of_mem j hk) hk'
        exact ⟨e, (other hk').trans he, hs⟩
      · rw [State.abortJob_tail r hj hh (by simpa [hj, Ne.symm hh] using hi)]
        have sub : (j :: rest.filter (fun k => k.cet != i)).Sublist (j :: rest) := List.filter_sublist.cons_cons j
        refine ⟨hn.sublist (sub.map Job.cet), fun k hk => ?_⟩
        have hk' : k.cet ≠ i := by
          rcases List.mem_cons.mp hk with rfl | hk
          · exact hh
          · simpa using (List.mem_filter.mp hk).2
        obtain ⟨e, he, hs⟩ := hv k (sub.subset hk) hk'
        exact ⟨e, (other hk').trans he, hs⟩
  · rw [State.abortJob_of_not_mem r hi]
    exact ⟨hn, fun j hj => hv j hj fun h => hi (h ▸ List.mem_map_of_mem hj)⟩

theorem State.freeEntry_jobsHeld {s : State} (h : s.JobsHeld) (i : CetIdx) (r : AbortReason) :
    (s.freeEntry i (some r)).JobsHeld := by
  obtain ⟨hn, hv⟩ := h
  cases he : s.entry i with
  | none => rw [State.freeEntry_of_none he]; exact ⟨hn, hv⟩
  | some e =>
    by_cases hs : e.status = .idle
    · rw [State.freeEntry_eq_freed he (.inr hs)]
      refine ⟨hn, fun j hj => ?_⟩
      obtain ⟨f, hf, hfs⟩ := hv j hj
      have hji : j.cet ≠ i := fun h => by
        rw [h, he, Option.some.injEq] at hf
        exact hfs (hf ▸ hs)
      exact ⟨f, by rw [State.freed_entry, if_neg hji, hf], hfs⟩
    · rw [State.freeEntry_eq_abort r he hs]
      refine State.abortJob_jobsHeld (s := (s.setEntry i none).bumpGeneration) r hn fun j hj hji => ?_
      obtain ⟨f, hf, hfs⟩ := hv j hj
      exact ⟨f, (Table.get_set_ne _ _ hji).trans hf, hfs⟩

theorem State.freeAll_jobsHeld {s : State} (h : s.JobsHeld) (is : List CetIdx) (r : AbortReason) :
    (s.freeAll is (some r)).JobsHeld := by
  induction is generalizing s with
  | nil => exact h
  | cons i is ih => exact ih (State.freeEntry_jobsHeld h i r)

/-- With no valid entry no job is left. -/
theorem State.JobsHeld.jobs_eq_nil {s : State} (h : s.JobsHeld) (he : ∀ i, s.entry i = none) : s.verify.jobs = [] := by
  refine List.eq_nil_iff_forall_not_mem.mpr fun j hj => ?_
  obtain ⟨e, hs, -⟩ := h.2 j hj
  simp [he] at hs

end Sys2Proof.Machine

/-! A CE record, the promotion of its entry, the proposal and the victim of a replacement (R18 to R27). -/

namespace Sys2Proof

theorem Table.set_set {α : Type} {n : Nat} (t : Table α n) (i : Fin n) (x y : α) : (t.set i x).set i y = t.set i y :=
  Table.ext_get fun j => by by_cases h : j = i <;> simp [h]

/-- A cell that already holds a value is kept by writing it. -/
theorem Table.set_of_get {α : Type} {n : Nat} {t : Table α n} {i : Fin n} {x : α} (h : t.get i = x) : t.set i x = t := by
  rw [← h, Table.set_get_self]

end Sys2Proof

namespace Sys2Proof.Machine

/-! ### The proposal of an entry -/

/-- R47: the lowest-index valid entry that overlaps a range. -/
theorem State.overlapping_eq_some {s : State} {r : Range} {j : RetIdx} {a : RetEntry} (ha : s.retired j = some a)
    (ho : r.overlaps a.range = true) (hl : ∀ k b, k < j → s.retired k = some b → r.overlaps b.range = false) :
    s.overlapping r = some j := by
  refine Table.find_eq_some_iff.mpr ⟨by simp [show s.retire.entries.get j = some a from ha, ho], fun k hk => ?_⟩
  cases hb : s.retire.entries.get k with
  | none => rfl
  | some b => simp [hl k b hk hb]

theorem State.overlapping_eq_none {s : State} {r : Range} :
    s.overlapping r = none ↔ ∀ k b, s.retired k = some b → r.overlaps b.range = false := by
  rw [State.overlapping, Table.find_eq_none]
  refine forall_congr' fun k => ?_
  rw [show s.retire.entries.get k = s.retired k from rfl]
  cases s.retired k <;> simp

theorem State.freeRetire_eq_some {s : State} {j : RetIdx} (h : s.retired j = none) (hl : ∀ k, k < j → s.retired k ≠ none) :
    s.freeRetire = some j :=
  Table.find_eq_some_iff.mpr ⟨by simpa [State.retired] using h, fun k hk => by
    simpa [State.retired, Option.isSome_iff_ne_none] using hl k hk⟩

theorem State.freeRetire_eq_none {s : State} (h : ∀ j, s.retired j ≠ none) : s.freeRetire = none :=
  Table.find_eq_none.mpr fun j => by simpa [State.retired, Option.isSome_iff_ne_none] using h j

theorem State.propose_merged {s : State} {r : Range} (ev : Evidence) {j : RetIdx} (h : s.overlapping r = some j) :
    s.propose r ev = (s.setRetire { s.retire with merged := satInc s.retire.merged }, .merged j) := by
  simp only [State.propose, h]

theorem State.propose_created {s : State} {r : Range} (ev : Evidence) {j : RetIdx} (h : s.overlapping r = none)
    (hf : s.freeRetire = some j) :
    s.propose r ev = ((s.setRetEntry j (some (proposedEntry r ev s.now))).setFlag .retireProposed, .created j) := by
  simp only [State.propose, h, hf]

theorem State.propose_full {s : State} {r : Range} (ev : Evidence) (h : s.overlapping r = none) (hf : s.freeRetire = none) :
    s.propose r ev = ((s.setRetire { s.retire with refused := satInc s.retire.refused }).setFlag .retireListFull, .full) := by
  simp only [State.propose, h, hf]

/-- R22: the range that the proposal of an entry covers. -/
def State.proposedRange (s : State) (e : CetEntry) : Range := e.key.range (s.geometry e.key.channel)

theorem State.propose_cet (s : State) (r : Range) (ev : Evidence) : (s.propose r ev).1.cet = s.cet := by
  unfold State.propose
  split
  · rfl
  · split <;> rfl

theorem State.modEntry_eq {s : State} {i : CetIdx} {e : CetEntry} (he : s.entry i = some e) (f : CetEntry → CetEntry) :
    s.modEntry i f = s.setEntry i (some (f e)) := by
  rw [State.modEntry, he]; rfl

/-- R22: an answer with an index links the entry to it. -/
theorem State.proposalAttempt_linked {s t : State} {i : CetIdx} {e : CetEntry} {j : RetIdx} (he : s.entry i = some e)
    (h : s.propose (s.proposedRange e) (.cet i) = (t, .merged j) ∨ s.propose (s.proposedRange e) (.cet i) = (t, .created j)) :
    s.proposalAttempt i = t.setEntry i (some { e with link := some j }) := by
  have cet : t.cet = s.cet := by
    have kept := s.propose_cet (s.proposedRange e) (.cet i)
    rcases h with h | h <;> rwa [h] at kept
  have ht : t.entry i = some e := by rw [State.entry, cet]; exact he
  rw [← State.modEntry_eq ht fun e => { e with link := some j }]
  unfold State.proposedRange at h
  rcases h with h | h <;> simp only [State.proposalAttempt, he, h]

theorem State.proposalAttempt_full {s t : State} {i : CetIdx} {e : CetEntry} (he : s.entry i = some e)
    (h : s.propose (s.proposedRange e) (.cet i) = (t, .full)) : s.proposalAttempt i = t := by
  unfold State.proposedRange at h
  simp only [State.proposalAttempt, he, h]

/-- Settles O41: each answer by the two searches of the list. -/
theorem proposalAnswers : Obligations.ProposalAnswers := by
  unfold Obligations.ProposalAnswers
  intro i e s he
  refine ⟨fun j a ha ho hl => ?_, fun hn => ⟨fun j hj hl => ?_, fun hf => ?_⟩⟩
  · rw [State.proposalAttempt_linked he (.inl (State.propose_merged _ (State.overlapping_eq_some ha ho hl)))]
    rfl
  · rw [State.proposalAttempt_linked he (.inr (State.propose_created _ (State.overlapping_eq_none.mpr hn)
      (State.freeRetire_eq_some hj hl)))]
    rfl
  · rw [State.proposalAttempt_full he (State.propose_full _ (State.overlapping_eq_none.mpr hn) (State.freeRetire_eq_none hf))]
    rfl

/-! ### Promotion -/

theorem State.setEntry_setEntry (s : State) (i : CetIdx) (x y : Option CetEntry) :
    (s.setEntry i x).setEntry i y = s.setEntry i y := by
  simp [State.setEntry, State.setCet, Table.set_set]

theorem State.setEntry_of_entry {s : State} {i : CetIdx} {x : Option CetEntry} (h : s.entry i = x) : s.setEntry i x = s := by
  simp only [State.setEntry, State.setCet, Table.set_of_get h]

@[simp] theorem State.setEntry_entry (s : State) (i : CetIdx) (x : Option CetEntry) : (s.setEntry i x).entry i = x :=
  Table.get_set_self _ _ _

theorem State.setStatus_eq {s : State} {i : CetIdx} {e : CetEntry} (he : s.entry i = some e) (v : VerifyStatus) :
    s.setStatus i v = s.setEntry i (some { e with status := v }) := State.modEntry_eq he _

theorem State.setStatus_setStatus {s : State} {i : CetIdx} {e : CetEntry} (he : s.entry i = some e) (v w : VerifyStatus) :
    (s.setStatus i v).setStatus i w = s.setStatus i w := by
  rw [State.setStatus_eq he, State.setStatus_eq (State.setEntry_entry _ _ _), State.setEntry_setEntry, State.setStatus_eq he]

theorem makeHead_active_cons {s : State} {j : Job} {rest : List Job} (h : (s.link j.channel).state = .active) :
    makeHead (j :: rest) s = (s.setStatus j.cet .running).setJobs
      ({ j with location := (s.entry j.cet).map CetEntry.readLoc } :: rest) := by
  simp [makeHead, State.linkActive, h]

theorem makeHead_inactive_cons {s : State} {j : Job} {rest : List Job} (h : (s.link j.channel).state ≠ .active) :
    makeHead (j :: rest) s = makeHead rest ((s.setStatus j.cet .idle).noteAbort .link j.cet) := by
  simp [makeHead, State.linkActive, h]

/-- R150, R151: the creation of a job for an IDLE entry. -/
theorem State.createJob_eq_withJob {s : State} {i : CetIdx} {e : CetEntry} (he : s.entry i = some e) (hi : e.status = .idle) :
    s.createJob i e.key.channel = s.withJob i e := by
  unfold State.createJob State.withJob
  by_cases hj : s.verify.jobs = []
  · simp only [hj, List.isEmpty_nil, if_true, ne_eq, not_true_eq_false, if_false]
    by_cases ha : (s.link e.key.channel).state = .active
    · rw [if_pos ha, makeHead_active_cons (s := s.setStatus i .queued) (j := newJob i e.key.channel s.verify) ha, newJob,
        State.setStatus_setStatus he, State.entry_setStatus, he, State.setStatus_eq he]
      rfl
    · rw [if_neg ha, makeHead_inactive_cons (s := s.setStatus i .queued) (j := newJob i e.key.channel s.verify) ha, newJob,
        State.setStatus_setStatus he, State.setStatus_eq he, State.setEntry_of_entry (by rw [he, ← hi]), makeHead, ← hj]
      rfl
  · simp only [List.isEmpty_iff, hj, if_false, ne_eq, not_false_iff, if_true]
    rw [State.setStatus_eq he]
    rfl

/-- R23: the proposal attempt under ON_THRESHOLD of an entry whose link is known. -/
theorem State.thresholdProposal_eq {s : State} {i : CetIdx} {e : CetEntry} (he : s.entry i = some e) :
    s.thresholdProposal i =
      if s.cet.policy.proposeMode = .onThreshold ∧ e.link = none then s.proposalAttempt i else s := by
  simp [State.thresholdProposal, State.unlinked, he, Option.isNone_iff_eq_none]

/-- R21: the auto-verify attempt of a valid entry. -/
theorem State.autoVerifyAttempt_eq {s : State} {i : CetIdx} {e : CetEntry} (he : s.entry i = some e) :
    s.autoVerifyAttempt i =
      if e.status = .idle then
        if s.verify.jobs.length < Config.verifySize then s.withJob i e
        else s.setCet { s.cet with verifyQueueFull := satInc s.cet.verifyQueueFull }
      else s := by
  unfold State.autoVerifyAttempt
  simp only [he]
  split
  · rw [State.createJob_eq_withJob he ‹_›]
  · rfl

/-- R21: the attempt keeps an entry apart from its verify status. -/
theorem State.autoVerifyAttempt_entry {s : State} {i : CetIdx} {e : CetEntry} (he : s.entry i = some e) :
    ∃ v, (s.autoVerifyAttempt i).entry i = some { e with status := v } := by
  unfold State.autoVerifyAttempt
  rw [he]
  dsimp only
  split
  · split
    · exact (s.createJob_statusOnly i e.key.channel).eq_some he
    · exact ⟨e.status, he⟩
  · exact ⟨e.status, he⟩

/-- R20: the promotion, attempt by attempt. -/
theorem State.promote_eq_promoted {s : State} {i : CetIdx} {e : CetEntry} (he : s.entry i = some e) :
    s.promote i = s.promoted i e := by
  let top : CetEntry := { e with state := .overThreshold }
  let raised : State := (s.setEntry i (some top)).setFlag .ceThreshold
  let verified : State := if s.cet.policy.autoVerify then raised.autoVerifyAttempt i else raised
  have hr : raised.entry i = some top := s.setEntry_entry i _
  have promote : s.promote i = verified.thresholdProposal i := by
    simp only [State.promote, State.modEntry_eq he]; rfl
  have hv : ∃ v, verified.entry i = some { top with status := v } := by
    simp only [verified]
    split
    · exact State.autoVerifyAttempt_entry hr
    · exact ⟨e.status, hr⟩
  have policy : verified.cet.policy = s.cet.policy := by
    simp only [verified]
    split
    · exact (raised.autoVerifyAttempt_tables i).policy
    · rfl
  obtain ⟨v, hv⟩ := hv
  rw [promote, State.thresholdProposal_eq hv, policy]
  simp only [verified, State.autoVerifyAttempt_eq hr, ← ite_and]
  rfl

/-! ### Hits, allocations and drops -/

/-- R20: the promotion test of a valid entry. -/
theorem State.promotionTest_eq {s : State} {i : CetIdx} {e : CetEntry} (he : s.entry i = some e) :
    s.promotionTest i = if e.state = .tracking ∧ s.cet.policy.threshold ≤ e.count then s.promoted i e else s := by
  unfold State.promotionTest
  simp only [he, State.promote_eq_promoted he]

/-- R18: the valid entry that holds a key is found, when no other holds it. -/
theorem State.findKey_eq_some {s : State} {k : Key} {i : CetIdx} {e : CetEntry} (he : s.entry i = some e) (hk : e.key = k)
    (hl : ∀ j f, j < i → s.entry j = some f → f.key ≠ k) : s.findKey k = some i := by
  refine Table.find_eq_some_iff.mpr ⟨by simp [show s.cet.entries.get i = some e from he, hk], fun j hj => ?_⟩
  cases hf : s.cet.entries.get j with
  | none => rfl
  | some f => simpa using hl j f hj hf

theorem State.findKey_eq_none {s : State} {k : Key} : s.findKey k = none ↔ ∀ j f, s.entry j = some f → f.key ≠ k := by
  rw [State.findKey, Table.find_eq_none]
  refine forall_congr' fun j => ?_
  rw [show s.cet.entries.get j = s.entry j from rfl]
  cases s.entry j <;> simp

theorem State.freeCet_eq_some {s : State} {i : CetIdx} (h : s.entry i = none) (hl : ∀ j, j < i → s.entry j ≠ none) :
    s.freeCet = some i :=
  Table.find_eq_some_iff.mpr ⟨by simpa [State.entry] using h, fun j hj => by
    simpa [State.entry, Option.isSome_iff_ne_none] using hl j hj⟩

theorem State.freeCet_eq_none {s : State} (h : ∀ i, s.entry i ≠ none) : s.freeCet = none :=
  Table.find_eq_none.mpr fun i => by simpa [State.entry, Option.isSome_iff_ne_none] using h i

/-- R18, R19: a record whose key an entry holds is counted in it, and then its state decides. -/
theorem State.takeCe_hit {s : State} {i : CetIdx} {e : CetEntry} {r : CeRecord} (he : s.entry i = some e)
    (hk : e.key = s.cet.policy.granularity.reduce r.loc) (hu : ∀ j f, s.entry j = some f → f.key = e.key → j = i) :
    s.takeCe r =
      if e.state = .tracking then (s.setEntry i (some (e.hit r))).promotionTest i
      else (s.setEntry i (some (e.hit r))).thresholdProposal i := by
  have found := State.findKey_eq_some he hk fun j f hj hf h => absurd (hu j f hf (h.trans hk.symm)) (ne_of_lt hj)
  simp only [State.takeCe, found, State.cetHit, he]
  cases e.state <;> rfl

/-- R20: with auto-verify off and no proposal due, a promotion changes the entry and its flag alone. -/
theorem State.promoted_plain {s : State} {i : CetIdx} {e : CetEntry} (ha : s.cet.policy.autoVerify = false)
    (hp : s.cet.policy.proposeMode ≠ .onThreshold ∨ e.link ≠ none) :
    s.promoted i e = (s.setEntry i (some { e with state := .overThreshold })).setFlag .ceThreshold := by
  have due : ¬(s.cet.policy.proposeMode = .onThreshold ∧ e.link = none) := not_and_or.mpr hp
  simp only [State.promoted, ha, due, Bool.false_eq_true, false_and, if_false]
  rfl

/-- Settles O38, by the state of the entry and its count. -/
theorem hitCountsInEntry : Obligations.HitCountsInEntry := by
  unfold Obligations.HitCountsInEntry
  intro i e r s he hk hu counted holding
  have hit : s.takeCe r = if e.state = .tracking then (holding counted).promotionTest i
      else (holding counted).thresholdProposal i := State.takeCe_hit he hk hu
  have held : (holding counted).entry i = some counted := s.setEntry_entry i _
  have below : counted.count < s.cet.policy.threshold → e.state = .tracking → s.takeCe r = holding counted := by
    intro hc hs
    rw [hit, if_pos hs, State.promotionTest_eq held, if_neg fun h => not_le.mpr hc h.2]
  have reached : s.cet.policy.threshold ≤ counted.count → e.state = .tracking →
      s.takeCe r = (holding counted).promoted i counted := by
    intro hc hs
    rw [hit, if_pos hs, State.promotionTest_eq held, if_pos ⟨hs, hc⟩]
  have above : e.state = .overThreshold → s.takeCe r =
      if s.cet.policy.proposeMode = .onThreshold ∧ e.link = none then (holding counted).proposalAttempt i else holding counted := by
    intro hs
    rw [hit, if_neg (by simp [hs]), State.thresholdProposal_eq held]
  refine ⟨fun ha hp => ⟨fun h => ?_, fun hs hc => ?_⟩, fun hs hc => below hc hs, fun hs hc => reached hc hs, above⟩
  · have due : ¬(s.cet.policy.proposeMode = .onThreshold ∧ e.link = none) := not_and_or.mpr hp
    cases hs : e.state with
    | overThreshold => rw [above hs, if_neg due]
    | tracking => exact below (h.resolve_left (by simp [hs])) hs
  · rw [reached hc hs, State.promoted_plain (s := holding counted) (e := counted) ha hp]
    simp only [holding, State.setEntry, State.setFlag, State.setCet, State.setEvents, Table.set_set]

/-- R13: the origins of a new entry are those of its record. -/
theorem OriginSet.empty_add (x : Origin) :
    OriginSet.empty.add x = ⟨x = .demand, x = .controller, x = .patrol, x = .injected⟩ := by
  cases x <;> rfl

/-- R24: an allocation, up to the promotion test of the new entry. -/
theorem State.allocate_eq (s : State) (i : CetIdx) (r : CeRecord) :
    s.allocate i r =
      let fresh := newEntry (s.cet.policy.granularity.reduce r.loc) r
      let allocated := (s.setEntry i (some fresh)).bumpGeneration
      if s.cet.policy.threshold ≤ 1 then allocated.promoted i fresh else allocated := by
  have held : ((s.setEntry i (some (newEntry (s.cet.policy.granularity.reduce r.loc) r))).bumpGeneration).entry i = _ :=
    s.setEntry_entry i _
  rw [State.allocate, State.promotionTest_eq held]
  simp only [newEntry, true_and]
  rfl

/-- Settles O39. -/
theorem missAllocatesLowestFree : Obligations.MissAllocatesLowestFree := by
  unfold Obligations.MissAllocatesLowestFree
  intro i r s hk hi hl fresh allocated
  have new : newEntry (s.cet.policy.granularity.reduce r.loc) r = fresh := by
    simp only [newEntry, OriginSet.empty_add]; rfl
  have taken : s.takeCe r = s.allocate i r := by
    simp only [State.takeCe, State.findKey_eq_none.mpr hk, State.freeCet_eq_some hi hl]
  rw [taken, State.allocate_eq, new]
  refine ⟨fun ht => ?_, fun ht => ?_⟩
  · exact if_neg (by omega)
  · exact if_pos ht

end Sys2Proof.Machine

/-! The victim of a replacement and a miss in a full table (R25 to R27). -/

namespace Sys2Proof.Machine

/-! ### The victim -/

/-- R25: an index with the eligible entry that it holds. -/
def State.Candidate (s : State) (x : CetIdx × CetEntry) : Prop := s.entry x.1 = some x.2 ∧ x.2.Eligible

theorem State.Candidate.eq_of_index {s : State} {x y : CetIdx × CetEntry} (hx : s.Candidate x) (hy : s.Candidate y)
    (h : x.1 = y.1) : x = y :=
  Prod.ext h (Option.some.inj (by rw [← hx.1, h, hy.1]))

/-- R25: one candidate is another, or goes before it by the tests of the rule in turn. -/
def AtLeast (now : Time) (x y : CetIdx × CetEntry) : Prop := x = y ∨ BetterVictim now x.1 x.2 y.1 y.2

theorem BetterVictim.trans {now : Time} {i j k : CetIdx} {e f g : CetEntry} (h : BetterVictim now i e j f)
    (h' : BetterVictim now j f k g) : BetterVictim now i e k g := by
  unfold BetterVictim at *
  simp only [Fin.lt_def] at *
  omega

theorem BetterVictim.asymm {now : Time} {i j : CetIdx} {e f : CetEntry} (h : BetterVictim now i e j f) :
    ¬BetterVictim now j f i e := by
  unfold BetterVictim at *
  simp only [Fin.lt_def] at *
  omega

theorem AtLeast.trans {now : Time} {x y z : CetIdx × CetEntry} (h : AtLeast now x y) (k : AtLeast now y z) : AtLeast now x z := by
  rcases h with rfl | h
  · exact k
  · rcases k with rfl | k
    · exact .inr h
    · exact .inr (h.trans k)

theorem CetEntry.goesBefore_iff (now : Time) (e f : CetEntry) : e.goesBefore now f = true ↔
    e.count < f.count ∨ e.count = f.count ∧ (now - f.lastSeen).toNat < (now - e.lastSeen).toNat := by
  simp only [CetEntry.goesBefore, Bool.or_eq_true, Bool.and_eq_true, decide_eq_true_eq]
  rfl

/-- R25: the better of the best candidate so far and the next one. -/
def State.pick (s : State) (b x : CetIdx × CetEntry) : CetIdx × CetEntry := if x.2.goesBefore s.now b.2 then x else b

theorem State.pick_cases (s : State) (b x : CetIdx × CetEntry) : s.pick b x = b ∨ s.pick b x = x := by
  unfold State.pick
  split <;> simp

/-- R25: with the candidates met in index order, a strict test for a new best settles every tie by the lower index. -/
theorem State.pick_atLeast (s : State) {b x : CetIdx × CetEntry} (h : b.1 < x.1) :
    AtLeast s.now (s.pick b x) b ∧ AtLeast s.now (s.pick b x) x := by
  unfold State.pick
  by_cases hg : x.2.goesBefore s.now b.2 = true
  · rw [if_pos hg]
    refine ⟨.inr ?_, .inl rfl⟩
    rw [CetEntry.goesBefore_iff] at hg
    unfold BetterVictim
    omega
  · rw [if_neg hg]
    refine ⟨.inl rfl, .inr ?_⟩
    rw [CetEntry.goesBefore_iff] at hg
    unfold BetterVictim
    simp only [Fin.lt_def] at *
    omega

theorem State.victimFrom_skip {s : State} {i : CetIdx} (rest : List CetIdx) (best : Option (CetIdx × CetEntry))
    (h : ∀ e, ¬s.Candidate (i, e)) : s.victimFrom (i :: rest) best = s.victimFrom rest best := by
  rw [State.victimFrom]
  split
  · rfl
  · next e he => rw [if_neg fun ho => h e ⟨he, e.ordinary_iff.mp ho⟩]

theorem State.victimFrom_first {s : State} {x : CetIdx × CetEntry} (rest : List CetIdx) (h : s.Candidate x) :
    s.victimFrom (x.1 :: rest) none = s.victimFrom rest (some x) := by
  obtain ⟨he, elig⟩ := h
  simp only [State.victimFrom, he, x.2.ordinary_iff.mpr elig, if_true]

theorem State.victimFrom_next {s : State} {x : CetIdx × CetEntry} (rest : List CetIdx) (b : CetIdx × CetEntry)
    (h : s.Candidate x) : s.victimFrom (x.1 :: rest) (some b) = s.victimFrom rest (some (s.pick b x)) := by
  obtain ⟨he, elig⟩ := h
  simp only [State.victimFrom, he, x.2.ordinary_iff.mpr elig, if_true, State.pick]
  split <;> rfl

/-- R25: the search over indices in order, from a best candidate before them, ends with a candidate that none of them goes before. -/
theorem State.victimFrom_some (s : State) (is : List CetIdx) (b : CetIdx × CetEntry) (hs : (b.1 :: is).Pairwise (· < ·))
    (hb : s.Candidate b) : ∃ v, s.victimFrom is (some b) = some v ∧ s.Candidate v ∧ AtLeast s.now v b ∧
      ∀ x, x.1 ∈ is → s.Candidate x → AtLeast s.now v x := by
  induction is generalizing b with
  | nil => exact ⟨b, rfl, hb, .inl rfl, fun x hx => by cases hx⟩
  | cons i rest ih =>
    have skip : (b.1 :: rest).Pairwise (· < ·) := hs.sublist ((List.sublist_cons_self i rest).cons_cons b.1)
    by_cases hc : ∃ e, s.Candidate (i, e)
    · obtain ⟨e, hy⟩ := hc
      obtain ⟨overBest, overNext⟩ := s.pick_atLeast (x := (i, e)) (List.rel_of_pairwise_cons hs List.mem_cons_self)
      have step := State.victimFrom_next rest b hy
      have cand : s.Candidate (s.pick b (i, e)) := by rcases s.pick_cases b (i, e) with h | h <;> rwa [h]
      have sorted : ((s.pick b (i, e)).1 :: rest).Pairwise (· < ·) := by
        rcases s.pick_cases b (i, e) with h | h <;> rw [h]
        · exact skip
        · exact hs.of_cons
      obtain ⟨v, hv, hcand, hle, hall⟩ := ih _ sorted cand
      refine ⟨v, step.trans hv, hcand, hle.trans overBest, fun x hx hxc => ?_⟩
      rcases List.mem_cons.mp hx with hi | hx
      · exact hxc.eq_of_index hy hi ▸ hle.trans overNext
      · exact hall x hx hxc
    · obtain ⟨v, hv, hcand, hle, hall⟩ := ih b skip hb
      refine ⟨v, (State.victimFrom_skip rest _ fun e he => hc ⟨e, he⟩).trans hv, hcand, hle, fun x hx hxc => ?_⟩
      rcases List.mem_cons.mp hx with rfl | hx
      · exact absurd ⟨x.2, hxc⟩ hc
      · exact hall x hx hxc

/-- R25: the search finds no victim exactly where there is no candidate, and otherwise one that no other goes before. -/
theorem State.victimFrom_none (s : State) (is : List CetIdx) (hs : is.Pairwise (· < ·)) :
    (s.victimFrom is none = none ∧ ∀ x, x.1 ∈ is → ¬s.Candidate x) ∨
      ∃ v, s.victimFrom is none = some v ∧ s.Candidate v ∧ ∀ x, x.1 ∈ is → s.Candidate x → AtLeast s.now v x := by
  induction is with
  | nil => exact .inl ⟨rfl, fun x hx => by cases hx⟩
  | cons i rest ih =>
    by_cases hc : ∃ e, s.Candidate (i, e)
    · obtain ⟨e, hx⟩ := hc
      obtain ⟨v, hv, hcand, hle, hall⟩ := s.victimFrom_some rest (i, e) hs hx
      refine .inr ⟨v, (State.victimFrom_first rest hx).trans hv, hcand, fun y hy hyc => ?_⟩
      rcases List.mem_cons.mp hy with hi | hy
      · exact hyc.eq_of_index hx hi ▸ hle
      · exact hall y hy hyc
    · rw [State.victimFrom_skip rest _ fun e he => hc ⟨e, he⟩]
      have first {y : CetIdx × CetEntry} (hy : y.1 = i) : ¬s.Candidate y := by
        rintro h
        subst hy
        exact hc ⟨y.2, h⟩
      rcases ih hs.of_cons with ⟨hn, hall⟩ | ⟨v, hv, hcand, hall⟩
      · refine .inl ⟨hn, fun y hy => ?_⟩
        rcases List.mem_cons.mp hy with hi | hy
        · exact first hi
        · exact hall y hy
      · refine .inr ⟨v, hv, hcand, fun y hy hyc => ?_⟩
        rcases List.mem_cons.mp hy with hi | hy
        · exact absurd hyc (first hi)
        · exact hall y hy hyc

/-- R25: there is no victim and no candidate, or the victim is a candidate that goes before every other. -/
theorem State.victim_cases (s : State) :
    (s.victim = none ∧ ∀ x, ¬s.Candidate x) ∨
      ∃ v, s.victim = some v.1 ∧ s.Candidate v ∧ ∀ x, s.Candidate x → AtLeast s.now v x := by
  rcases s.victimFrom_none (List.finRange 128) (List.pairwise_lt_finRange 128) with ⟨hn, hall⟩ | ⟨v, hv, hcand, hall⟩
  · exact .inl ⟨by rw [State.victim, hn]; rfl, fun x => hall x (List.mem_finRange _)⟩
  · exact .inr ⟨v, by rw [State.victim, hv]; rfl, hcand, fun x => hall x (List.mem_finRange _)⟩

theorem State.victim_eq_none (s : State) : s.victim = none ↔ ∀ i e, s.entry i = some e → ¬e.Eligible := by
  rcases s.victim_cases with ⟨hn, hall⟩ | ⟨v, hv, hcand, -⟩
  · exact ⟨fun _ i e he elig => hall (i, e) ⟨he, elig⟩, fun _ => hn⟩
  · simp only [hv, reduceCtorEq, false_iff]
    exact fun h => h v.1 v.2 hcand.1 hcand.2

theorem State.victim_eq_some (s : State) (i : CetIdx) : s.victim = some i ↔ ∃ e, s.entry i = some e ∧ e.Eligible ∧
    ∀ j f, s.entry j = some f → f.Eligible → j ≠ i → BetterVictim s.clock.time i e j f := by
  rcases s.victim_cases with ⟨hn, hall⟩ | ⟨v, hv, hcand, hall⟩
  · simp only [hn, reduceCtorEq, false_iff]
    rintro ⟨e, he, elig, -⟩
    exact hall (i, e) ⟨he, elig⟩
  · have beats : ∀ j f, s.entry j = some f → f.Eligible → j ≠ v.1 → BetterVictim s.clock.time v.1 v.2 j f :=
      fun j f hf elig hj => (hall (j, f) ⟨hf, elig⟩).resolve_left fun h => hj (congrArg Prod.fst h).symm
    rw [hv, Option.some.injEq]
    constructor
    · rintro rfl
      exact ⟨v.2, hcand.1, hcand.2, beats⟩
    · rintro ⟨e, he, elig, best⟩
      by_contra hne
      exact (beats i e he elig (Ne.symm hne)).asymm (best v.1 v.2 hcand.1 hcand.2 hne)

/-! ### A miss in a full table -/

/-- R26: a replacement frees the victim without a job and allocates its index. -/
theorem State.replace_eq {s : State} {i : CetIdx} {e : CetEntry} (he : s.entry i = some e) (r : CeRecord) :
    s.replace i r =
      let counted := (s.freed i).setCet { (s.freed i).cet with replaced := satInc s.cet.replaced }
      let fresh := newEntry (s.cet.policy.granularity.reduce r.loc) r
      let allocated := (counted.setEntry i (some fresh)).bumpGeneration
      if s.cet.policy.threshold ≤ 1 then allocated.promoted i fresh else allocated := by
  rw [State.replace, State.freeEntry_eq_freed he (.inl rfl)]
  exact State.allocate_eq _ i r

/-- R26: the index of the victim holds the new entry, two changes are counted and the victim's role as evidence ends. -/
def State.replaced (s : State) (i : CetIdx) (fresh : CetEntry) : State := { s with
  cet := { s.cet with
    entries := s.cet.entries.set i (some fresh)
    generation := s.cet.generation + 2
    replaced := min (s.cet.replaced + 1) 65535 }
  retire := { s.retire with entries := s.retire.entries.map (fun a => a.map (fun a => a.without i)) } }

theorem State.allocated_eq_replaced (s : State) (i : CetIdx) (fresh : CetEntry) :
    ((((s.freed i).setCet { (s.freed i).cet with replaced := satInc s.cet.replaced }).setEntry i
      (some fresh)).bumpGeneration) = s.replaced i fresh := by
  simp only [State.freed, State.replaced, State.setCet, State.setEntry, State.bumpGeneration, Table.set_set,
    BitVec.add_assoc]
  rfl

/-- Settles O40: a full table that holds no entry of the key asks for a victim. -/
theorem fullTableLooksForVictim : Obligations.FullTableLooksForVictim := by
  unfold Obligations.FullTableLooksForVictim
  refine ⟨fun s => ⟨s.victim_eq_some, s.victim_eq_none⟩, fun r s hk hf => ?_⟩
  have missed := State.findKey_eq_none.mpr hk
  have full := State.freeCet_eq_none hf
  have taken {i : CetIdx} (hv : s.victim = some i) : s.takeCe r =
      let fresh := newEntry (s.cet.policy.granularity.reduce r.loc) r
      if s.cet.policy.threshold ≤ 1 then (s.replaced i fresh).promoted i fresh else s.replaced i fresh := by
    obtain ⟨e, he, -⟩ := (s.victim_eq_some i).mp hv
    simp only [State.takeCe, missed, full, hv, State.replace_eq he, State.allocated_eq_replaced]
  refine ⟨fun i hv ht => ?_, fun i hv ht => (taken hv).trans (if_pos ht), fun hv => ?_⟩
  · have replaced := (taken hv).trans (if_neg (by omega))
    dsimp only
    rw [replaced]
    exact ⟨rfl, fun k => Table.get_map _ _ _⟩
  · simp only [State.takeCe, missed, full, hv]
    rfl

end Sys2Proof.Machine

/-! The commands on the CET and the end of Full reset (R17, R33 to R39, R184). -/

namespace Sys2Proof.Machine

/-- Settles O5. -/
theorem fullResetEndStartsLeak : Obligations.FullResetEndStartsLeak := by
  unfold Obligations.FullResetEndStartsLeak
  refine fun s => ⟨fun hr => ?_, fun t ht => ⟨?_, rfl⟩⟩
  · simp [exec, execFullResetEnd, hr, State.startLeakTimer, State.setRst, State.setCet, Timer.ofSetting, Config.msPerSecond]
  · simp only [exec, execFullReset, Host.Outcome.next.injEq] at ht
    subst ht
    rfl

/-! ### The parameters of the commands -/

section
variable {s : State} {w : Word} {f : CetIdx → State × Answer} {g : CetIdx → CetEntry → State × Answer}

theorem withCetIndex_eq {i : CetIdx} (h : field w 15 0 = i.val) : withCetIndex s w f = f i := by
  simp only [withCetIndex, finOf_some (show indexParam w = i.val from h)]

theorem withCetIndex_beyond (h : 128 ≤ field w 15 0) : withCetIndex s w f = (s, refusal .badParam) := by
  simp only [withCetIndex, finOf_none (show 128 ≤ indexParam w from h)]

theorem withCetEntry_eq {i : CetIdx} {e : CetEntry} (h : field w 15 0 = i.val) (he : s.entry i = some e) :
    withCetEntry s w g = g i e := by
  simp only [withCetEntry, withCetIndex_eq h, he]

theorem withCetEntry_free {i : CetIdx} (h : field w 15 0 = i.val) (he : s.entry i = none) :
    withCetEntry s w g = (s, refusal .notFound) := by
  simp only [withCetEntry, withCetIndex_eq h, he]

theorem withCetEntry_beyond (h : 128 ≤ field w 15 0) : withCetEntry s w g = (s, refusal .badParam) := withCetIndex_beyond h

end

/-- A command that leaves the part as its take found it. -/
theorem State.answered_latch (s : State) (p : Port) (code : ResultCode) (result : Pages) :
    State.answered p (s.latch p, .done code result) = s.withDone p code result := s.latch_complete p code result

/-- A command whose effect, on the tables alone, may be placed before its take. -/
theorem State.answered_tables {s t : State} (p : Port) (h : TablesOnly s t) (code : ResultCode) (result : Pages) :
    State.answered p (t.asTaken (s.latch p), .done code result) = t.withDone p code result :=
  s.complete_asTaken t p h.engine h.sysMail h.svcMail code result

theorem State.latch_cet (s : State) (p : Port) : (s.latch p).cet = s.cet := by cases p <;> rfl

theorem State.latch_entry (s : State) (p : Port) (i : CetIdx) : (s.latch p).entry i = s.entry i := by
  rw [State.entry, s.latch_cet]; rfl

theorem State.latch_okGeneration (s : State) (p : Port) :
    (s.latch p).okGeneration = (s.latch p, okWords [s.generationWord]) := by cases p <;> rfl

theorem State.latch_modEntry (s : State) (p : Port) (i : CetIdx) (f : CetEntry → CetEntry) :
    (s.latch p).modEntry i f = (s.modEntry i f).asTaken (s.latch p) := by cases p <;> rfl

theorem State.latch_freeEntry (s : State) (p : Port) (i : CetIdx) (r : Option AbortReason) :
    (s.latch p).freeEntry i r = (s.freeEntry i r).asTaken (s.latch p) :=
  (congrArg (State.freeEntry · i r) (s.latch_asTaken p)).trans (s.freeEntry_asTaken _ i r)

theorem State.latch_freeAll (s : State) (p : Port) (is : List CetIdx) (r : Option AbortReason) :
    (s.latch p).freeAll is r = (s.freeAll is r).asTaken (s.latch p) :=
  (congrArg (State.freeAll · is r) (s.latch_asTaken p)).trans (s.freeAll_asTaken _ is r)

/-- R33: a command on a valid CET entry: what it does to the entry, and its two refusals. -/
theorem State.Takes.run_entry {s : State} {p : Port} {n : Nat} (h : s.Takes p n)
    {g : State → CetIdx → CetEntry → State × Answer} :
    let run := s.whileRunning (fun s => s.engineTake (codeIs n) .any fun _ ps s => withCetEntry s (ps.get 0) (g s))
    (∀ i e, field (s.param p 0) 15 0 = i.val → s.entry i = some e → run = .next (State.answered p (g (s.latch p) i e))) ∧
    (∀ i : CetIdx, field (s.param p 0) 15 0 = i.val → s.entry i = none → run = .next (s.withRefusal p .notFound)) ∧
    (128 ≤ field (s.param p 0) 15 0 → run = .next (s.withRefusal p .badParam)) := by
  intro run
  have taken : run = .next (State.answered p (withCetEntry (s.latch p) (s.param p 0) (g (s.latch p)))) := h.run_any _
  rw [taken]
  refine ⟨fun i e hi he => ?_, fun i hi he => ?_, fun hb => ?_⟩
  · rw [withCetEntry_eq hi ((s.latch_entry p i).trans he)]
  · rw [withCetEntry_free hi ((s.latch_entry p i).trans he)]
    exact congrArg _ (s.answered_latch p _ _)
  · rw [withCetEntry_beyond hb]
    exact congrArg _ (s.answered_latch p _ _)

/-! ### Clears and pins -/

theorem State.mem_validIndices {s : State} {i : CetIdx} : i ∈ s.validIndices ↔ (s.entry i).isSome = true := by
  simp [State.validIndices]

theorem State.nodup_validIndices (s : State) : s.validIndices.Nodup := (List.nodup_finRange 128).filter _

theorem State.length_validIndices (s : State) : s.validIndices.length = s.cet.occupancy := by
  rw [Cet.occupancy_eq, List.countP_eq_length_filter]
  rfl

/-- R37: the part after every valid entry has been freed. -/
def State.cleared (s : State) : State := s.freeAll s.validIndices (some .cleared)

theorem State.cleared_statusOnly (s : State) : StatusOnly (s.freedAll s.validIndices) s.cleared :=
  State.freeAll_statusOnly s.nodup_validIndices (fun _ hi => State.mem_validIndices.mp hi) _

theorem State.cleared_entry (s : State) (i : CetIdx) : s.cleared.entry i = none := by
  refine s.cleared_statusOnly.eq_none ?_
  rw [State.freedAll_entry]
  cases he : s.entry i <;> simp [State.mem_validIndices, he]

theorem Cet.count_entries_eq_zero {c : Cet} {p : Option CetEntry → Bool} (hp : p none = false)
    (h : ∀ i, c.entries.get i = none) : c.entries.count p = 0 := by
  simp [Table.count_eq, h, hp]

theorem State.cleared_cet (s : State) : s.cleared.cet = { s.cet with
    entries := s.cleared.cet.entries
    generation := s.cet.generation + BitVec.ofNat 16 s.cet.occupancy } := by
  rw [s.cleared_statusOnly.cet, State.freedAll_frame, State.freedAll_generation, State.length_validIndices]

theorem State.cleared_jobs {s : State} (h : s.QueueLaw) : s.cleared.verify.jobs = [] :=
  (State.freeAll_jobsHeld h.jobsHeld _ _).jobs_eq_nil s.cleared_entry

/-- R36: a free advances the generation count by one. -/
theorem State.freeEntry_generation {s : State} {i : CetIdx} {e : CetEntry} (he : s.entry i = some e)
    (reason : Option AbortReason) : (s.freeEntry i reason).cet.generation = s.cet.generation + 1 := by
  rw [(State.freeEntry_statusOnly he reason).cet]; rfl

/-- R38: PIN_CET on a valid entry. -/
theorem State.Takes.pinCet {s : State} {p : Port} (h : s.Takes p 20) {i : CetIdx} {e : CetEntry}
    (hi : field (s.param p 0) 15 0 = i.val) (he : s.entry i = some e) : exec .pinCet s =
      .next (if e.pinned then s.withOk p [s.generationWord]
        else if Config.pinLimit ≤ s.cet.pinnedCount then s.withRefusal p .limit
        else (s.setEntry i (some { e with pinned := true })).withOk p [s.generationWord]) := by
  refine (h.run_entry.1 i e hi he).trans (congrArg _ ?_)
  simp only [s.latch_cet p, s.latch_modEntry, s.latch_okGeneration]
  split
  · exact s.answered_latch p _ _
  · split
    · exact s.answered_latch p _ _
    · rw [State.modEntry_eq he]
      exact State.answered_tables p (s.setEntry_tables i _) _ _

/-- R39: UNPIN_CET on a valid entry. -/
theorem State.Takes.unpinCet {s : State} {p : Port} (h : s.Takes p 21) {i : CetIdx} {e : CetEntry}
    (hi : field (s.param p 0) 15 0 = i.val) (he : s.entry i = some e) : exec .unpinCet s =
      .next ((s.setEntry i (some { e with pinned := false })).withOk p [s.generationWord]) := by
  refine (h.run_entry.1 i e hi he).trans (congrArg _ ?_)
  rw [s.latch_modEntry, State.modEntry_eq he]
  exact State.answered_tables p (s.setEntry_tables i _) _ _

/-- R36: CLEAR_CET_ENTRY on a valid entry. -/
theorem State.Takes.clearCetEntry {s : State} {p : Port} (h : s.Takes p 18) {i : CetIdx} {e : CetEntry}
    (hi : field (s.param p 0) 15 0 = i.val) (he : s.entry i = some e) : exec .clearCetEntry s =
      .next ((s.freeEntry i (some .cleared)).withOk p [(s.cet.generation + 1).setWidth 32]) := by
  refine (h.run_entry.1 i e hi he).trans (congrArg _ ?_)
  rw [s.latch_freeEntry, ← State.freeEntry_generation he (some .cleared)]
  exact State.answered_tables p (s.freeEntry_tables i _) _ _

/-- R37: CLEAR_CET_ALL. -/
theorem State.Takes.clearCetAll {s : State} {p : Port} (h : s.Takes p 19) : exec .clearCetAll s =
    .next (s.cleared.withOk p [num s.cet.occupancy, s.cleared.cet.generation.setWidth 32]) := by
  refine (h.run_any bodyClearCetAll).trans (congrArg _ ?_)
  have valid : (s.latch p).validIndices = s.validIndices := by cases p <;> rfl
  simp only [bodyClearCetAll, valid, s.latch_freeAll, State.length_validIndices]
  exact State.answered_tables p (s.freeAll_tables _ _) _ _

/-- Settles O45: the clears by what the frees do to the tables, the pins by their writes. -/
theorem cetClearsAndPins : Obligations.CetClearsAndPins := by
  unfold Obligations.CetClearsAndPins
  refine ⟨fun p s => ⟨fun h => ⟨fun i e hi he => h.clearCetEntry hi he, h.run_entry.2⟩, fun h => ?_⟩, fun p s => ?_⟩
  · have tables := s.freeAll_tables s.validIndices (some .cleared)
    have cet := s.cleared_cet
    refine ⟨s.cleared, h.clearCetAll, s.cleared_entry, Cet.count_entries_eq_zero rfl s.cleared_entry,
      Cet.count_entries_eq_zero rfl s.cleared_entry, ?_, ?_, ?_, ?_, ?_, ?_, State.cleared_jobs,
      tables.links, tables.queues, tables.scrubs, tables.uel⟩ <;> rw [cet]
  · refine ⟨fun i e hi he => ⟨fun h => ?_, fun h => h.unpinCet hi he⟩, fun i hi he => ⟨fun h => h.run_entry.2.1 i hi he,
      fun h => h.run_entry.2.1 i hi he⟩, fun hb => ⟨fun h => h.run_entry.2.2 hb, fun h => h.run_entry.2.2 hb⟩⟩
    have pin := h.pinCet hi he
    refine ⟨fun hp => ?_, fun hp hc => ?_, fun hp hc => ?_⟩
    · exact pin.trans (by rw [if_pos hp]; rfl)
    · exact pin.trans (by rw [if_neg (by simp [hp]), if_neg (show ¬Config.pinLimit ≤ _ from not_le.mpr hc)]; rfl)
    · exact pin.trans (by rw [if_neg (by simp [hp]), if_pos (show Config.pinLimit ≤ _ from hc)])

end Sys2Proof.Machine

/-! The reads of the CET and the words of READ_CET (R33 to R35, R188). -/

namespace Sys2Proof.Machine

/-! ### Words whose fields stand in ascending order -/

/-- R188: a word made of fields, each above the one before it. -/
structure Laid (w : Word) (fs : List (Nat × Nat × Nat)) : Prop where
  packed    : w = pack fs
  ascending : fs.Pairwise (fun f g => f.1 < g.2.1)

section
variable {w : Word} {fs : List (Nat × Nat × Nat)}

theorem Laid.field_mod (h : Laid w fs) (k : Nat) {hi lo v : Nat} (hk : fs[k]? = some (hi, lo, v)) (hw : hi < 32) :
    field w hi lo = v % 2 ^ (hi + 1 - lo) := by
  obtain ⟨hl, hv⟩ := List.getElem?_eq_some_iff.mp hk
  have split : fs = fs.take k ++ (hi, lo, v) :: fs.drop (k + 1) := by
    rw [← hv, ← List.drop_eq_getElem_cons hl, List.take_append_drop]
  obtain ⟨packed, ascending⟩ := h
  rw [split, List.pairwise_append, List.pairwise_cons] at ascending
  obtain ⟨-, ⟨above, -⟩, below⟩ := ascending
  rw [packed, split]
  exact field_pack hw (fun f hf => .inr (below f hf _ List.mem_cons_self)) (fun f hf => .inl (above f hf))

/-- The field at a place of the list holds its number, when the number fits. -/
theorem Laid.field (h : Laid w fs) (k : Nat) {hi lo v : Nat} (hk : fs[k]? = some (hi, lo, v)) (hw : hi < 32)
    (hv : v < 2 ^ (hi + 1 - lo)) : field w hi lo = v := by
  rw [h.field_mod k hk hw, Nat.mod_eq_of_lt hv]

/-- The bit at a place of the list holds its truth value. -/
theorem Laid.bit (h : Laid w fs) (k : Nat) {n : Nat} {b : Bool} (hk : fs[k]? = some (flagBit n b)) (hw : n < 32) :
    w.getLsbD n = b := by
  rw [getLsbD_eq_field, h.field_mod k hk hw]
  cases b <;> simp

/-- Bits that no field meets are 0. -/
theorem Laid.unnamed (h : Laid w fs) {hi lo : Nat} (ha : ∀ f ∈ fs, Apart hi lo f) : Machine.field w hi lo = 0 := by
  rw [h.packed, field_pack_unnamed ha]

end

/-! ### The words of READ_CET -/

theorem VerifyStatus.code_lt (v : VerifyStatus) : v.code < 4 := by cases v <;> decide

theorem VerifyOutcome.code_lt (o : VerifyOutcome) : o.code < 4 := by cases o <;> decide

/-- R188: a word with the generation count alone. -/
theorem pack_generation (gen : BitVec 16) : pack [(31, 16, gen.toNat)] = gen.setWidth 32 <<< 16 := by
  apply BitVec.eq_of_toNat_eq
  have := gen.isLt
  simp [pack, placed, BitVec.toNat_shiftLeft, Nat.shiftLeft_eq]
  omega

/-- R188: word 0 of page 0 of a valid entry. -/
theorem cetPage0_word0 (e : CetEntry) (gen : BitVec 16) :
    let w := (cetPage0 (some e) gen).getD 0 0
    w.getLsbD 0 = true ∧ w.getLsbD 1 = e.key.row.isSome ∧ w.getLsbD 2 = e.key.column.isSome ∧
    w.getLsbD 3 = decide (e.state = .overThreshold) ∧ w.getLsbD 4 = e.pinned ∧
    w.getLsbD 5 = decide (e.worst = .symbol) ∧ field w 7 6 = e.status.code ∧
    w.getLsbD 8 = e.origins.demand ∧ w.getLsbD 9 = e.origins.controller ∧ w.getLsbD 10 = e.origins.patrol ∧
    w.getLsbD 11 = e.origins.injected ∧ w.getLsbD 12 = e.result.isSome ∧
    (∀ o t, e.result = some (o, t) → field w 14 13 = o.code) ∧ w.getLsbD 15 = e.link.isSome ∧
    (∀ j, e.link = some j → field w 20 16 = j.val) ∧ field w 31 21 = 0 := by
  intro w
  have laid : Laid w _ := ⟨rfl, by simp [flagBit]⟩
  refine ⟨laid.bit 0 rfl (by decide), laid.bit 1 rfl (by decide), laid.bit 2 rfl (by decide), laid.bit 3 rfl (by decide),
    laid.bit 4 rfl (by decide), laid.bit 5 rfl (by decide), laid.field 6 rfl (by decide) e.status.code_lt,
    laid.bit 7 rfl (by decide), laid.bit 8 rfl (by decide), laid.bit 9 rfl (by decide), laid.bit 10 rfl (by decide),
    laid.bit 11 rfl (by decide), fun o t h => ?_, laid.bit 13 rfl (by decide), fun j h => ?_,
    laid.unnamed (by simp [flagBit, Apart])⟩
  · exact laid.field 12 (by simp [h]) (by decide) o.code_lt
  · exact laid.field 14 (by simp [h]) (by decide) j.isLt

/-- R188: words 1 and 2 of page 0 of a valid entry. -/
theorem cetPage0_key (e : CetEntry) (gen : BitVec 16) :
    let w := fun k => (cetPage0 (some e) gen).getD k 0
    field (w 1) 3 0 = e.key.channel.val ∧ field (w 1) 7 4 = e.key.rank.val ∧ field (w 1) 15 8 = e.key.bank.val ∧
    (∀ c, e.key.column = some c → field (w 1) 27 16 = c.val) ∧ (∀ r, e.key.row = some r → field (w 2) 19 0 = r.val) ∧
    field (w 1) 31 28 = 0 ∧ field (w 2) 31 20 = 0 := by
  intro w
  have place : Laid (w 1) _ := ⟨rfl, by simp⟩
  have row : Laid (w 2) _ := ⟨rfl, by simp⟩
  refine ⟨place.field 0 rfl (by decide) (by have := e.key.channel.isLt; omega),
    place.field 1 rfl (by decide) (by have := e.key.rank.isLt; omega),
    place.field 2 rfl (by decide) (by have := e.key.bank.isLt; omega), fun c h => ?_, fun r h => ?_,
    place.unnamed (by simp [Apart]), row.unnamed (by simp [Apart])⟩
  · exact place.field 3 (by simp [h]) (by decide) (by have := c.isLt; omega)
  · exact row.field 0 (by simp [h]) (by decide) (by have := r.isLt; omega)

/-- R188: word 3 of page 0 of a valid entry. -/
theorem cetPage0_counts (e : CetEntry) (gen : BitVec 16) (hc : e.count ≤ 65535) :
    let w := (cetPage0 (some e) gen).getD 3 0
    field w 15 0 = e.count ∧ field w 31 16 = gen.toNat := by
  intro w
  have laid : Laid w _ := ⟨rfl, by simp⟩
  exact ⟨laid.field 0 rfl (by decide) (by omega), laid.field 1 rfl (by decide) gen.isLt⟩

/-- R188: page 1 of a valid entry. -/
theorem cetPage1_valid (e : CetEntry) :
    let v := fun k => (cetPage1 (some e)).getD k 0
    (v 0).toNat = e.lastRow.val ∧ (v 1).toNat = e.lastColumn.val ∧ (∀ o t, e.result = some (o, t) → v 2 = t) := by
  have row := e.lastRow.isLt
  have column := e.lastColumn.isLt
  refine ⟨toNat_of_num rfl (by omega), toNat_of_num rfl (by omega), fun o t h => ?_⟩
  simp [cetPage1, h]

/-- R34: every word of page 1 of a free entry is 0. -/
theorem cetPage1_free (k : Nat) : (cetPage1 none).getD k 0 = 0 := by
  match k with
  | 0 | 1 | 2 | _ + 3 => rfl

/-! ### READ_CET and FIND_CET -/

theorem State.latch_geometry (s : State) (p : Port) : (s.latch p).geometry = s.geometry := by cases p <;> rfl

theorem State.latch_findKey (s : State) (p : Port) (k : Key) : (s.latch p).findKey k = s.findKey k := by cases p <;> rfl

theorem State.latch_generationWord (s : State) (p : Port) : (s.latch p).generationWord = s.generationWord := by cases p <;> rfl

/-- R34: READ_CET of an index. -/
theorem State.Takes.readCet {s : State} {p : Port} (h : s.Takes p 16) {i : CetIdx} (hi : field (s.param p 0) 15 0 = i.val) :
    exec .readCet s = .next (s.withDone p .ok (pages (cetPage0 (s.entry i) s.cet.generation) (cetPage1 (s.entry i)) [])) := by
  refine (h.run_any bodyReadCet).trans (congrArg _ ?_)
  rw [bodyReadCet, withCetIndex_eq (w := (s.mail p).params.get 0) hi, s.latch_entry, s.latch_cet]
  exact s.answered_latch p _ _

theorem State.Takes.readCet_beyond {s : State} {p : Port} (h : s.Takes p 16) (hb : 128 ≤ field (s.param p 0) 15 0) :
    exec .readCet s = .next (s.withRefusal p .badParam) := by
  refine (h.run_any bodyReadCet).trans (congrArg _ ?_)
  rw [bodyReadCet, withCetIndex_beyond (w := (s.mail p).params.get 0) hb]
  exact s.answered_latch p _ _

/-- R35: FIND_CET of a location within geometry whose key an entry holds. -/
theorem State.Takes.findCet_found {s : State} {p : Port} (h : s.Takes p 17) {l : Loc} {i : CetIdx}
    (hl : LocWords (s.param p 0) (s.param p 1) l) (hw : l.within (s.geometry l.channel) = true)
    (hf : s.findKey (s.cet.policy.granularity.reduce l) = some i) :
    exec .findCet s = .next (s.withOk p [num i.val, s.generationWord]) := by
  refine (h.run_any bodyFindCet).trans (congrArg _ ?_)
  have param : locParam ((s.mail p).params.get 0) ((s.mail p).params.get 1) = some l := hl.param
  simp only [bodyFindCet, param, s.latch_geometry, s.latch_cet, s.latch_findKey, s.latch_generationWord, hw, hf, if_true]
  exact s.answered_latch p _ _

/-- R35: FIND_CET of a location outside geometry, or whose key no entry holds. -/
theorem State.Takes.findCet_missing {s : State} {p : Port} (h : s.Takes p 17) {l : Loc}
    (hl : LocWords (s.param p 0) (s.param p 1) l)
    (hn : l.within (s.geometry l.channel) = false ∨ s.findKey (s.cet.policy.granularity.reduce l) = none) :
    exec .findCet s = .next (s.withRefusal p .notFound) := by
  refine (h.run_any bodyFindCet).trans (congrArg _ ?_)
  have param : locParam ((s.mail p).params.get 0) ((s.mail p).params.get 1) = some l := hl.param
  simp only [bodyFindCet, param, s.latch_geometry, s.latch_cet, s.latch_findKey]
  rcases hn with hw | hf
  · simp only [hw, Bool.false_eq_true, if_false]
    exact s.answered_latch p _ _
  · simp only [hf, ite_self]
    exact s.answered_latch p _ _

theorem State.Takes.findCet_beyond {s : State} {p : Port} (h : s.Takes p 17) (hb : BeyondRange (s.param p 0) (s.param p 1)) :
    exec .findCet s = .next (s.withRefusal p .badParam) := by
  refine (h.run_any bodyFindCet).trans (congrArg _ ?_)
  have param : locParam ((s.mail p).params.get 0) ((s.mail p).params.get 1) = none := hb.param
  simp only [bodyFindCet, param]
  exact s.answered_latch p _ _

/-- Settles O44: the two commands by their searches, the words by the places of their fields. -/
theorem cetReads : Obligations.CetReads := by
  unfold Obligations.CetReads
  refine ⟨fun p s => ⟨fun h => ⟨fun i hi => h.readCet hi, h.readCet_beyond⟩,
    fun h => ⟨fun l i e hl hw he hk hf => ?_, fun l hl hn => ?_, h.findCet_beyond⟩⟩, ⟨rfl, rfl⟩, fun e gen hc => ?_⟩
  · exact h.findCet_found hl hw (State.findKey_eq_some he hk fun j f hj hf' => hk ▸ hf j f hj hf')
  · exact h.findCet_missing hl (hn.imp_right State.findKey_eq_none.mpr)
  · obtain ⟨b0, b1, b2, b3, b4, b5, status, b8, b9, b10, b11, b12, outcome, b15, link, rest⟩ := cetPage0_word0 e gen
    obtain ⟨channel, rank, bank, column, row, rest1, rest2⟩ := cetPage0_key e gen
    obtain ⟨count, generation⟩ := cetPage0_counts e gen hc
    obtain ⟨lastRow, lastColumn, time⟩ := cetPage1_valid e
    exact ⟨b0, b1, b2, b3, b4, b5, status, b8, b9, b10, b11, b12, outcome, b15, link, channel, rank, bank, column, row, rest, rest1,
      rest2, count, generation, rfl, rfl, by rw [cetPage0, pack_generation], lastRow, lastColumn, time, rfl, rfl, rfl, cetPage1_free⟩

end Sys2Proof.Machine

/-! What every command may do to the entries of the CET and of the list, to the records of the log and to the purge, and the laws of
these that it keeps (R14, R42, R51, R59, R65, R164, R165). -/

namespace Sys2Proof

/-- A table none of whose cells gains a property counts no more cells with it. -/
theorem Table.count_mono {α : Type} {n : Nat} {t u : Table α n} {p : α → Bool}
    (h : ∀ i, p (u.get i) = true → p (t.get i) = true) : u.count p ≤ t.count p := by
  rw [Table.count_eq, Table.count_eq]
  exact List.countP_mono_left fun i _ => h i

end Sys2Proof

namespace Sys2Proof.Machine

/-! ### What the laws are about -/

/-- What the tables and the log hold, which mailboxes are RUNNING, and the purge. -/
structure Holdings where
  entries : Table (Option CetEntry) 128
  ranges  : Table (Option RetEntry) 32
  records : List UeRecord
  sysMail : MailState
  svcMail : MailState
  purge   : Option Purge

/-- The holdings of a state. -/
def State.holdings (s : State) : Holdings where
  entries := s.cet.entries
  ranges  := s.retire.entries
  records := s.uel.records
  sysMail := s.sysMail.state
  svcMail := s.svcMail.state
  purge   := s.engine.purge

/-- R13: an entry that is pinned. -/
def pinnedCell (e : Option CetEntry) : Bool := (e.map CetEntry.pinned).getD false

/-- R19, R29, R31: an entry stays under its key with a count in range, and no event but PIN_CET pins it. -/
structure CetEntry.Keeps (e f : CetEntry) : Prop where
  key    : f.key = e.key
  pinned : f.pinned = true → e.pinned = true
  low    : 1 ≤ e.count → 1 ≤ f.count
  high   : e.count ≤ 65535 → f.count ≤ 65535

/-- R42, R51: the confirmed time is present exactly in a CONFIRMED entry, and a PROPOSED one has suppressed nothing. -/
def RetEntry.Sound (a : RetEntry) : Prop :=
  (a.state = .confirmed ↔ a.confirmed.isSome = true) ∧ (a.state = .proposed → a.suppressed = 0)

/-- R51: a retirement entry keeps its range and stays CONFIRMED once it is. -/
structure RetEntry.Keeps (a b : RetEntry) : Prop where
  range     : b.range = a.range
  sound     : a.Sound → b.Sound
  confirmed : a.state = .confirmed → b.state = .confirmed

/-- R75: an ESCALATED record has no window. -/
def UeRecord.Sound (r : UeRecord) : Prop := r.ack = .escalated → r.window = none

/-- A change of the tables or of the log that an event makes. -/
inductive Move : Holdings → Holdings → Prop
  | entries (a : Holdings) (x : Table (Option CetEntry) 128)
      (h : ∀ i f, x.get i = some f → ∃ e, a.entries.get i = some e ∧ e.Keeps f) : Move a { a with entries := x }
  | allocate (a : Holdings) (i : CetIdx) (e : CetEntry) (hk : ∀ j f, a.entries.get j = some f → f.key ≠ e.key)
      (hc : e.count = 1) (hp : e.pinned = false) : Move a { a with entries := a.entries.set i (some e) }
  | pin (a : Holdings) (i : CetIdx) (e : CetEntry) (he : a.entries.get i = some e) (hp : a.entries.count pinnedCell < 96) :
      Move a { a with entries := a.entries.set i (some { e with pinned := true }) }
  | ranges (a : Holdings) (x : Table (Option RetEntry) 32) (h : ∀ i, Option.Rel RetEntry.Keeps (a.ranges.get i) (x.get i)) :
      Move a { a with ranges := x }
  | retire (a : Holdings) (i : RetIdx) (e : RetEntry) (hf : a.ranges.get i = none)
      (ho : ∀ j b, a.ranges.get j = some b → e.range.overlaps b.range = false) (hs : e.Sound) :
      Move a { a with ranges := a.ranges.set i (some e) }
  | records (a : Holdings) (rs : List UeRecord) (hl : rs.length ≤ a.records.length)
      (h : ∀ r ∈ rs, ∃ q ∈ a.records, q.Sound → r.Sound) : Move a { a with records := rs }
  | append (a : Holdings) (r : UeRecord) (hl : a.records.length < 16) (hs : r.Sound) :
      Move a { a with records := a.records ++ [r] }

/-- The changes that an event makes, one after another. -/
abbrev Moves : Holdings → Holdings → Prop := Relation.ReflTransGen Move

theorem Moves.of_eq {a b : Holdings} (h : b = a) : Moves a b := h ▸ .refl

/-! ### The laws along the changes -/

/-- R14. -/
def Holdings.CetLaw (a : Holdings) : Prop :=
  (∀ i e, a.entries.get i = some e → 1 ≤ e.count ∧ e.count ≤ 65535) ∧
  (∀ i j e f, a.entries.get i = some e → a.entries.get j = some f → e.key = f.key → i = j) ∧
  a.entries.count pinnedCell ≤ 96

theorem State.cetLaw_iff {s : State} : s.CetLaw ↔ s.holdings.CetLaw := Iff.rfl

/-- R42, R51. -/
def Holdings.ListLaw (a : Holdings) : Prop :=
  (∀ i j b c, a.ranges.get i = some b → a.ranges.get j = some c → b.range.overlaps c.range = true → i = j) ∧
  ∀ i b, a.ranges.get i = some b → b.Sound

theorem State.listLaw_iff {s : State} : s.ListLaw ↔ s.holdings.ListLaw := by
  constructor
  · rintro ⟨disjoint, confirmed, proposed⟩
    exact ⟨disjoint, fun i b hb => ⟨confirmed i b hb, proposed i b hb⟩⟩
  · rintro ⟨disjoint, sound⟩
    exact ⟨disjoint, fun i b hb => (sound i b hb).1, fun i b hb => (sound i b hb).2⟩

/-- R65, R75. -/
def Holdings.UelLaw (a : Holdings) : Prop := a.records.length ≤ 16 ∧ ∀ r ∈ a.records, r.Sound

theorem State.uelLaw_iff {s : State} : s.UelLaw ↔ s.holdings.UelLaw := Iff.rfl

theorem Move.cetLaw {a b : Holdings} (h : Move a b) (law : a.CetLaw) : b.CetLaw := by
  obtain ⟨counts, keys, pinned⟩ := law
  cases h with
  | entries x h =>
    refine ⟨fun i f hf => ?_, fun i j f g hf hg hk => ?_, (Table.count_mono fun i hp => ?_).trans pinned⟩
    · obtain ⟨e, he, keeps⟩ := h i f hf
      exact (counts i e he).imp keeps.low keeps.high
    · obtain ⟨e, he, keeps⟩ := h i f hf
      obtain ⟨d, hd, keeps'⟩ := h j g hg
      exact keys i j e d he hd (by rw [← keeps.key, hk, keeps'.key])
    · cases hf : x.get i with
      | none => simp [pinnedCell, hf] at hp
      | some f =>
        obtain ⟨e, he, keeps⟩ := h i f hf
        simp only [pinnedCell, hf, he, Option.map_some, Option.getD_some] at hp ⊢
        exact keeps.pinned hp
  | allocate i e hk hc hp =>
    have count := Table.count_set a.entries pinnedCell i (some e)
    refine ⟨fun j f hf => ?_, fun j k f g hf hg heq => ?_, ?_⟩
    · rw [Table.get_set] at hf
      split at hf
      · cases hf; omega
      · exact counts j f hf
    · rw [Table.get_set] at hf hg
      split at hf <;> split at hg
      · simp_all
      · cases hf; exact absurd heq.symm (hk k g hg)
      · cases hg; exact absurd heq (hk j f hf)
      · exact keys j k f g hf hg heq
    · have : pinnedCell (some e) = false := hp
      simp only [this, Bool.toNat_false] at count
      dsimp only
      omega
  | pin i e he hp =>
    have count := Table.count_set a.entries pinnedCell i (some { e with pinned := true })
    have cell (j : CetIdx) (f : CetEntry) (hf : (a.entries.set i (some { e with pinned := true })).get j = some f) :
        ∃ g, a.entries.get j = some g ∧ f.count = g.count ∧ f.key = g.key := by
      rw [Table.get_set] at hf
      split at hf
      · next h => cases hf; exact ⟨e, h ▸ he, rfl, rfl⟩
      · exact ⟨f, hf, rfl, rfl⟩
    refine ⟨fun j f hf => ?_, fun j k f g hf hg heq => ?_, ?_⟩
    · obtain ⟨g, hg, hc, -⟩ := cell j f hf
      rw [hc]
      exact counts j g hg
    · obtain ⟨f', hf', -, hk⟩ := cell j f hf
      obtain ⟨g', hg', -, hk'⟩ := cell k g hg
      exact keys j k f' g' hf' hg' (by rw [← hk, heq, hk'])
    · have : pinnedCell (some { e with pinned := true }) = true := rfl
      simp only [this, Bool.toNat_true] at count
      dsimp only
      omega
  | ranges | retire | records | append => exact ⟨counts, keys, pinned⟩

theorem Range.overlaps_comm (r q : Range) : r.overlaps q = q.overlaps r := by
  simp only [Range.overlaps, eq_comm (a := r.channel), eq_comm (a := r.rank), eq_comm (a := r.bank),
    and_comm (a := r.first.val ≤ q.last.val)]

theorem rel_exists_left {α β : Type} {R : α → β → Prop} {x : Option α} {y : Option β} {b : β} (h : Option.Rel R x y)
    (hy : y = some b) : ∃ a, x = some a ∧ R a b := by
  subst hy
  cases h with
  | some h => exact ⟨_, rfl, h⟩

theorem rel_exists_right {α β : Type} {R : α → β → Prop} {x : Option α} {y : Option β} {a : α} (h : Option.Rel R x y)
    (hx : x = some a) : ∃ b, y = some b ∧ R a b := by
  subst hx
  cases h with
  | some h => exact ⟨_, rfl, h⟩

theorem Move.listLaw {a b : Holdings} (h : Move a b) (law : a.ListLaw) : b.ListLaw := by
  obtain ⟨disjoint, sound⟩ := law
  cases h with
  | ranges x h =>
    refine ⟨fun i j c d hc hd ho => ?_, fun i c hc => ?_⟩
    · obtain ⟨c', hc', kc⟩ := rel_exists_left (h i) hc
      obtain ⟨d', hd', kd⟩ := rel_exists_left (h j) hd
      exact disjoint i j c' d' hc' hd' (by rwa [← kc.range, ← kd.range])
    · obtain ⟨c', hc', kc⟩ := rel_exists_left (h i) hc
      exact kc.sound (sound i c' hc')
  | retire i e hf ho hs =>
    refine ⟨fun j k c d hc hd hov => ?_, fun j c hc => ?_⟩
    · rw [Table.get_set] at hc hd
      split at hc <;> split at hd
      · simp_all
      · cases hc; exact absurd hov (by simp [ho k d hd])
      · cases hd; exact absurd hov (by simp [Range.overlaps_comm c.range, ho j c hc])
      · exact disjoint j k c d hc hd hov
    · rw [Table.get_set] at hc
      split at hc
      · cases hc; exact hs
      · exact sound j c hc
  | entries | allocate | pin | records | append => exact ⟨disjoint, sound⟩

theorem Move.uelLaw {a b : Holdings} (h : Move a b) (law : a.UelLaw) : b.UelLaw := by
  obtain ⟨length, sound⟩ := law
  cases h with
  | records rs hl h =>
    refine ⟨hl.trans length, fun r hr => ?_⟩
    obtain ⟨q, hq, hs⟩ := h r hr
    exact hs (sound q hq)
  | append r hl hs =>
    refine ⟨by simpa using hl, fun q hq => ?_⟩
    rcases List.mem_append.mp hq with hq | hq
    · exact sound q hq
    · exact List.mem_singleton.mp hq ▸ hs
  | entries | allocate | pin | ranges | retire => exact ⟨length, sound⟩

/-- A property that every change keeps is kept along all of them. -/
theorem Moves.keeps {P : Holdings → Prop} (step : ∀ {a b}, Move a b → P a → P b) {a b : Holdings} (h : Moves a b)
    (ha : P a) : P b := by
  induction h with
  | refl => exact ha
  | tail _ hm ih => exact step hm ih

/-- R61: the entry at an index of the list is CONFIRMED. -/
def Holdings.Confirmed (a : Holdings) (i : RetIdx) : Prop := ∃ b, a.ranges.get i = some b ∧ b.state = .confirmed

theorem Move.confirmed {a b : Holdings} (h : Move a b) (i : RetIdx) (hc : a.Confirmed i) : b.Confirmed i := by
  obtain ⟨c, hc, hs⟩ := hc
  cases h with
  | ranges x h =>
    obtain ⟨d, hd, keeps⟩ := rel_exists_right (h i) hc
    exact ⟨d, hd, keeps.confirmed hs⟩
  | retire j e hf =>
    have : i ≠ j := fun h => by simp [← h, hc] at hf
    exact ⟨c, by simpa [this] using hc, hs⟩
  | entries | allocate | pin | records | append => exact ⟨c, hc, hs⟩

/-- R59, R164: the changes reach neither the mailboxes nor the purge, and leave CONFIRMED entries CONFIRMED. -/
structure Holdings.SameEngine (a b : Holdings) : Prop where
  sysMail   : b.sysMail = a.sysMail
  svcMail   : b.svcMail = a.svcMail
  purge     : b.purge = a.purge
  confirmed : ∀ i, a.Confirmed i → b.Confirmed i

theorem Moves.sameEngine {a b : Holdings} (h : Moves a b) : a.SameEngine b := by
  refine Moves.keeps (P := a.SameEngine) (fun {b c} hm hb => ?_) h ⟨rfl, rfl, rfl, fun _ h => h⟩
  obtain ⟨h1, h2, h3, h4⟩ := hb
  refine ⟨?_, ?_, ?_, fun i hi => hm.confirmed i (h4 i hi)⟩
  · cases hm <;> exact h1
  · cases hm <;> exact h2
  · cases hm <;> exact h3

end Sys2Proof.Machine

/-! The changes that each operation of the blocks makes to the tables and to the log. -/

namespace Sys2Proof.Machine

/-! ### Updates of the tables -/

theorem CetEntry.Keeps.refl (e : CetEntry) : e.Keeps e := ⟨rfl, id, id, id⟩

theorem RetEntry.Keeps.refl (a : RetEntry) : a.Keeps a := ⟨rfl, id, id⟩

/-- A new value for the entries of the CET, each with what it stems from. -/
theorem moves_entries (a : Holdings) {x : Table (Option CetEntry) 128}
    (h : ∀ i f, x.get i = some f → ∃ e, a.entries.get i = some e ∧ e.Keeps f) : Moves a { a with entries := x } :=
  .single (.entries a x h)

/-- Only verify statuses differ. -/
theorem moves_of_statusOnly {s t : State} (h : StatusOnly s t) (k : TablesOnly s t) : Moves s.holdings t.holdings := by
  have same : t.holdings = { s.holdings with entries := t.cet.entries } := by
    simp only [State.holdings, h.retire, k.uel, k.engine, k.sysMail, k.svcMail]
  rw [same]
  refine moves_entries _ fun i f hf => ?_
  cases he : s.entry i with
  | none => exact absurd hf (by rw [show t.cet.entries.get i = none from h.eq_none he]; simp)
  | some e =>
    obtain ⟨v, hv⟩ := h.eq_some he
    obtain rfl : f = { e with status := v } := Option.some.inj (hf.symm.trans hv)
    exact ⟨e, he, rfl, id, id, id⟩

theorem State.entry_setEntry (s : State) (i j : CetIdx) (x : Option CetEntry) :
    (s.setEntry i x).entry j = if j = i then x else s.entry j := Table.get_set _ _ _ _

section
variable (s : State)

/-- An entry changed in place, under its key. -/
theorem State.modEntry_moves (i : CetIdx) {f : CetEntry → CetEntry} (h : ∀ e : CetEntry, e.Keeps (f e)) :
    Moves s.holdings (s.modEntry i f).holdings := by
  refine moves_entries _ fun j g hg => ?_
  rw [show (s.modEntry i f).cet.entries.get j = _ from s.entry_setEntry i j _] at hg
  split at hg
  · next hj =>
    obtain ⟨e, he, rfl⟩ := Option.map_eq_some_iff.mp hg
    exact ⟨e, hj ▸ he, h e⟩
  · exact ⟨g, hg, .refl g⟩

theorem State.removeEntry_moves (i : CetIdx) : Moves s.holdings (s.setEntry i none).holdings := by
  refine moves_entries _ fun j g hg => ?_
  rw [show (s.setEntry i none).cet.entries.get j = _ from s.entry_setEntry i j _] at hg
  split at hg
  · cases hg
  · exact ⟨g, hg, .refl g⟩

/-- Entries of the list changed in place, each keeping its range. -/
theorem State.mapRetired_moves {f : RetEntry → RetEntry} (h : ∀ a : RetEntry, a.Keeps (f a)) :
    Moves s.holdings { s.holdings with ranges := s.retire.entries.map (fun a => a.map f) } := by
  refine .single (.ranges s.holdings _ fun i => ?_)
  rw [Table.get_map, show s.holdings.ranges.get i = s.retire.entries.get i from rfl]
  cases s.retire.entries.get i with
  | none => exact .none
  | some a => exact .some (h a)

theorem RetEntry.without_keeps (a : RetEntry) (i : CetIdx) : a.Keeps (a.without i) := by
  unfold RetEntry.without
  split
  · exact ⟨rfl, id, id⟩
  · exact .refl a

theorem State.dropEvidence_moves (i : CetIdx) : Moves s.holdings (s.dropEvidence i).holdings :=
  s.mapRetired_moves fun a => a.without_keeps i

/-- An entry of the list replaced by one of its range. -/
theorem State.setRetEntry_moves {i : RetIdx} {a b : RetEntry} (ha : s.retire.entries.get i = some a) (h : a.Keeps b) :
    Moves s.holdings (s.setRetEntry i (some b)).holdings := by
  refine .single (.ranges s.holdings (s.retire.entries.set i (some b)) fun j => ?_)
  rw [Table.get_set, show s.holdings.ranges.get j = s.retire.entries.get j from rfl]
  split
  · next hj =>
    rw [hj, ha]
    exact .some h
  · cases s.retire.entries.get j with
    | none => exact .none
    | some c => exact .some (.refl c)

theorem satInc_le (n : Nat) : satInc n ≤ 65535 := by
  simp [satInc, satAdd, Config.counterMax]

theorem one_le_satInc (n : Nat) : 1 ≤ satInc n := by
  simp [satInc, satAdd, Config.counterMax]

/-- R51: the range that suppresses is CONFIRMED. -/
theorem State.suppress_moves {ch : Chan} {rank : Rank} {bank : Bank} {row : Row} {i : RetIdx}
    (h : s.lookup ch rank bank row = some i) : Moves s.holdings (s.suppress i).holdings := by
  have found := (Table.find_eq_some h).1
  cases ha : s.retire.entries.get i with
  | none => simp [ha] at found
  | some a =>
    simp only [ha, Option.map_some, Option.getD_some, RetEntry.answers, Bool.and_eq_true, beq_iff_eq] at found
    rw [State.suppress, ha]
    exact s.setRetEntry_moves ha ⟨rfl, fun hs => ⟨hs.1, by simp [found.1]⟩, id⟩

/-- R47: a range that is listed overlaps none that is valid. -/
theorem State.listRange_moves {i : RetIdx} {r : Range} {e : RetEntry} (hr : e.range = r) (ho : s.overlapping r = none)
    (hf : s.freeRetire = some i) (hs : e.Sound) : Moves s.holdings (s.setRetEntry i (some e)).holdings := by
  refine .single (.retire s.holdings i e ?_ (fun j b hb => ?_) hs)
  · exact Option.isNone_iff_eq_none.mp (Table.find_eq_some hf).1
  · rw [hr]
    exact State.overlapping_eq_none.mp ho j b hb

theorem State.propose_moves (r : Range) (ev : Evidence) : Moves s.holdings (s.propose r ev).1.holdings := by
  cases ho : s.overlapping r with
  | some i => rw [State.propose_merged ev ho]; exact .refl
  | none =>
    cases hf : s.freeRetire with
    | some i =>
      rw [State.propose_created ev ho hf]
      exact s.listRange_moves rfl ho hf (by simp [RetEntry.Sound, proposedEntry])
    | none => rw [State.propose_full ev ho hf]; exact .refl

/-! ### The verify queue and the CET -/

theorem makeHead_moves (jobs : List Job) : Moves s.holdings (makeHead jobs s).holdings :=
  moves_of_statusOnly (makeHead_statusOnly jobs s) (makeHead_tables jobs s)

theorem State.abortJob_moves (r : AbortReason) (i : CetIdx) : Moves s.holdings (s.abortJob r i).holdings :=
  moves_of_statusOnly (s.abortJob_statusOnly r i) (s.abortJob_tables r i)

theorem State.abortRunningOn_moves (ch : Chan) : Moves s.holdings (s.abortRunningOn ch).holdings :=
  moves_of_statusOnly (s.abortRunningOn_statusOnly ch) (s.abortRunningOn_tables ch)

theorem State.createJob_moves (i : CetIdx) (ch : Chan) : Moves s.holdings (s.createJob i ch).holdings :=
  moves_of_statusOnly (s.createJob_statusOnly i ch) (s.createJob_tables i ch)

theorem State.emptyVerify_moves : Moves s.holdings s.emptyVerify.holdings := by
  refine moves_entries _ fun i f hf => ?_
  rw [show s.emptyVerify.cet.entries.get i = _ from Table.get_map s.cet.entries _ i] at hf
  obtain ⟨e, he, rfl⟩ := Option.map_eq_some_iff.mp hf
  exact ⟨e, he, rfl, id, id, id⟩

theorem State.freed_moves (i : CetIdx) : Moves s.holdings (s.freed i).holdings :=
  (s.removeEntry_moves i).trans ((s.setEntry i none).dropEvidence_moves i)

theorem State.freeEntry_moves (i : CetIdx) (r : Option AbortReason) : Moves s.holdings (s.freeEntry i r).holdings := by
  cases he : s.entry i with
  | none => rw [State.freeEntry_of_none he]
  | some e =>
    by_cases h : r = none ∨ e.status = .idle
    · rw [State.freeEntry_eq_freed he h]
      exact s.freed_moves i
    · push Not at h
      obtain ⟨hr, hs⟩ := h
      obtain ⟨reason, rfl⟩ := Option.ne_none_iff_exists'.mp hr
      rw [State.freeEntry_eq_abort reason he hs]
      refine (s.removeEntry_moves i).trans (Relation.ReflTransGen.trans ?_ (State.dropEvidence_moves _ i))
      exact ((s.setEntry i none).bumpGeneration).abortJob_moves reason i

theorem State.freeAll_moves (is : List CetIdx) (r : Option AbortReason) : Moves s.holdings (s.freeAll is r).holdings := by
  induction is generalizing s with
  | nil => exact .refl
  | cons i is ih => exact (s.freeEntry_moves i r).trans (ih _)

theorem leaked_keeps {x : Option CetEntry} {f : CetEntry} (h : leaked x = some f) : ∃ e, x = some e ∧ e.Keeps f := by
  cases x with
  | none => cases h
  | some e =>
    refine ⟨e, rfl, ?_⟩
    simp only [leaked] at h
    split at h
    · split at h
      · cases h
      · cases h
        exact ⟨rfl, id, fun _ => by dsimp only; omega, fun _ => by dsimp only; omega⟩
    · cases h
      exact .refl f

/-- R29: the leak lowers and frees in one change, so that no count reaches 0 in between. -/
theorem State.leakTable_moves : Moves s.holdings s.leakTable.holdings := by
  rw [State.leakTable_frame]
  refine (moves_entries s.holdings (x := s.leakTable.cet.entries) fun i f hf => ?_).trans (.single (.ranges _ _ fun k => ?_))
  · exact leaked_keeps ((s.leakTable_entry i).symm.trans hf)
  · rw [show s.leakTable.retire.entries.get k = s.leakTable.retired k from rfl, State.leakTable_retired]
    show Option.Rel _ (s.retired k) _
    cases s.retired k with
    | none => exact .none
    | some a =>
      refine .some ?_
      dsimp only
      split
      · exact ⟨rfl, id, id⟩
      · exact .refl a

theorem State.proposalAttempt_moves (i : CetIdx) : Moves s.holdings (s.proposalAttempt i).holdings := by
  unfold State.proposalAttempt
  split
  · exact .refl
  · next e _ =>
    have proposed := s.propose_moves (e.key.range (s.geometry e.key.channel)) (.cet i)
    split <;> rename_i h <;> rw [h] at proposed
    · exact proposed.trans (State.modEntry_moves _ i fun e => ⟨rfl, id, id, id⟩)
    · exact proposed.trans (State.modEntry_moves _ i fun e => ⟨rfl, id, id, id⟩)
    · exact proposed

theorem State.autoVerifyAttempt_moves (i : CetIdx) : Moves s.holdings (s.autoVerifyAttempt i).holdings := by
  unfold State.autoVerifyAttempt
  split
  · exact .refl
  · split
    · split
      · exact s.createJob_moves _ _
      · exact .refl
    · exact .refl

theorem State.thresholdProposal_moves (i : CetIdx) : Moves s.holdings (s.thresholdProposal i).holdings := by
  unfold State.thresholdProposal
  split
  · exact s.proposalAttempt_moves i
  · exact .refl

theorem State.promote_moves (i : CetIdx) : Moves s.holdings (s.promote i).holdings := by
  have raised : Moves s.holdings ((s.modEntry i fun e => { e with state := .overThreshold }).setFlag .ceThreshold).holdings :=
    s.modEntry_moves i fun e => ⟨rfl, id, id, id⟩
  unfold State.promote
  dsimp only
  refine Relation.ReflTransGen.trans ?_ (State.thresholdProposal_moves _ i)
  split
  · exact raised.trans (State.autoVerifyAttempt_moves _ i)
  · exact raised

theorem State.promotionTest_moves (i : CetIdx) : Moves s.holdings (s.promotionTest i).holdings := by
  unfold State.promotionTest
  split
  · exact .refl
  · split
    · exact s.promote_moves i
    · exact .refl

theorem CetEntry.hit_keeps (e : CetEntry) (r : CeRecord) : e.Keeps (e.hit r) :=
  ⟨rfl, id, fun _ => one_le_satInc _, fun _ => satInc_le _⟩

theorem State.cetHit_moves (i : CetIdx) (r : CeRecord) : Moves s.holdings (s.cetHit i r).holdings := by
  unfold State.cetHit
  split
  · exact .refl
  · next e he =>
    have counted : Moves s.holdings (s.setEntry i (some (e.hit r))).holdings := by
      rw [← State.modEntry_eq he fun e => e.hit r]
      exact s.modEntry_moves i fun e => e.hit_keeps r
    dsimp only
    split
    · exact counted.trans (State.promotionTest_moves _ i)
    · exact counted.trans (State.thresholdProposal_moves _ i)

/-- R24: the key of a new entry is held by no other. -/
theorem State.allocate_moves (i : CetIdx) (r : CeRecord)
    (h : ∀ j f, s.entry j = some f → f.key ≠ s.cet.policy.granularity.reduce r.loc) :
    Moves s.holdings (s.allocate i r).holdings :=
  (Relation.ReflTransGen.single (.allocate s.holdings i (newEntry _ r) h rfl rfl)).trans
    (((s.setEntry i (some (newEntry _ r))).bumpGeneration).promotionTest_moves i)

theorem State.takeCe_moves (r : CeRecord) : Moves s.holdings (s.takeCe r).holdings := by
  cases hk : s.findKey (s.cet.policy.granularity.reduce r.loc) with
  | some i => simp only [State.takeCe, hk]; exact s.cetHit_moves i r
  | none =>
    have missed := State.findKey_eq_none.mp hk
    cases hf : s.freeCet with
    | some i => simp only [State.takeCe, hk, hf]; exact s.allocate_moves i r missed
    | none =>
      cases hv : s.victim with
      | none => simp only [State.takeCe, hk, hf, hv]; exact .refl
      | some i =>
        obtain ⟨e, he, -⟩ := (s.victim_eq_some i).mp hv
        simp only [State.takeCe, hk, hf, hv, State.replace, State.freeEntry_eq_freed he (.inl rfl)]
        refine Relation.ReflTransGen.trans ?_ (State.allocate_moves _ i r fun j f hj => ?_)
        · exact s.freed_moves i
        have := (s.freed_entry i j).symm.trans hj
        split at this
        · cases this
        · exact missed j f this

theorem State.reachOutcome_moves (j : Job) (rest : List Job) : Moves s.holdings (s.reachOutcome j rest).holdings := by
  have written : Moves s.holdings
      ((s.modEntry j.cet fun e => { e with result := some (j.outcome, s.now), status := .idle }).setFlag .verifyDone).holdings :=
    s.modEntry_moves j.cet fun e => ⟨rfl, id, id, id⟩
  unfold State.reachOutcome
  dsimp only
  refine Relation.ReflTransGen.trans ?_ (makeHead_moves _ rest)
  split
  · exact written.trans (State.proposalAttempt_moves _ j.cet)
  · exact written

theorem State.countRead_moves (r : ReadResult) : Moves s.holdings (s.countRead r).holdings := by
  unfold State.countRead
  split
  · exact .refl
  · dsimp only
    split
    · exact s.reachOutcome_moves _ _
    · exact .refl

theorem State.endRead_moves (ch : Chan) (tag : Tag) (number : BitVec 8) (r : Option ReadResult) :
    Moves s.holdings (s.endRead ch tag number r).holdings := by
  unfold State.endRead
  split
  · exact .refl
  · split
    · dsimp only
      split
      · split
        · exact (s.setRecord ch none).countRead_moves _
        · exact .refl
      · exact .refl
    · exact .refl

/-! ### The links and the transmitters (R104 to R122) -/

theorem State.abandonRequests_moves (ch : Chan) (r : Option ReadResult) : Moves s.holdings (s.abandonRequests ch r).holdings := by
  unfold State.abandonRequests State.tellAbandoned
  generalize ht : s.modScrub ch Scrub.abandon = t
  rw [show s.holdings = t.holdings by subst ht; rfl]
  clear ht
  induction (s.scrub ch).tagList generalizing t with
  | nil => exact .refl
  | cons x rest ih =>
    rw [List.foldl_cons]
    refine Relation.ReflTransGen.trans ?_ (ih _)
    split
    · split
      · exact t.endRead_moves _ _ _ _
      · exact .refl
    · exact .refl

theorem State.departActive_moves (ch : Chan) (st : LinkState) : Moves s.holdings (s.departActive ch st).holdings :=
  (State.abandonRequests_moves (((s.setLinkState ch st).modLink ch Link.dropCredits).modTx ch Transmitter.withdraw) ch none).trans
    (State.abortRunningOn_moves _ ch)

theorem State.enterSyncing_moves (ch : Chan) : Moves s.holdings (s.enterSyncing ch).holdings := by
  unfold State.enterSyncing
  dsimp only
  split
  · exact s.departActive_moves ch .syncing
  · exact (s.setLinkState ch .syncing).abortRunningOn_moves ch

theorem State.goDown_moves (ch : Chan) : Moves s.holdings (s.goDown ch).holdings :=
  (State.abandonRequests_moves (((s.setLinkState ch .down).modLink ch fun l =>
    { l.dropCredits with attempts := 0, attemptTimer := none }).modTx ch fun _ => Transmitter.cut) ch none).trans
    (State.abortRunningOn_moves _ ch)

theorem State.attemptExpiry_holdings (ch : Chan) : (s.attemptExpiry ch).holdings = s.holdings := by
  unfold State.attemptExpiry
  split <;> rfl

theorem State.sendCredit_holdings (ch : Chan) (n : Nat) : (s.sendCredit ch n).holdings = s.holdings := by
  unfold State.sendCredit
  split <;> rfl

theorem State.arriveSync_moves (ch : Chan) (seq : BitVec 8) : Moves s.holdings (s.arriveSync ch seq).holdings := by
  unfold State.arriveSync
  split
  · exact .refl
  · exact .of_eq (State.sendCredit_holdings _ ch _)
  · exact .refl
  · exact ((s.modTx ch Transmitter.withdraw).abandonRequests_moves ch (some .noAnswer)).trans
      (Moves.of_eq (State.sendCredit_holdings _ ch _))

theorem State.arriveFailing_moves (ch : Chan) : Moves s.holdings (s.arriveFailing ch).holdings := by
  unfold State.arriveFailing
  dsimp only
  split
  · exact .refl
  · exact .refl
  · exact .refl
  · split
    · exact State.departActive_moves ((s.modCounters ch _).modLink ch _) ch .failed
    · exact .refl

/-- A frame changes no holding where what its kind does onward changes none. -/
theorem State.arrive_holdings (ch : Chan) (seq : BitVec 8) {onward : State → State}
    (h : ∀ t, (onward t).holdings = t.holdings) : (s.arrive ch seq onward).holdings = s.holdings := by
  unfold State.arrive State.arriveActive
  split
  · rfl
  · rfl
  · rfl
  · dsimp only
    split
    · exact h _
    · exact h _
    · rfl

theorem State.joinQueue_holdings (ch : Chan) (r : Report) : (s.joinQueue ch r).holdings = s.holdings := by
  unfold State.joinQueue
  split <;> rfl

theorem State.returnCredit_holdings (ch : Chan) : (s.returnCredit ch).holdings = s.holdings := by
  unfold State.returnCredit
  split
  · dsimp only
    split
    · exact State.sendCredit_holdings _ ch _
    · rfl
  · rfl

/-! ### The scrub engine (R129 to R145) -/

theorem State.patrolStep_holdings (ch : Chan) (tag : Tag) : (s.patrolStep ch tag).holdings = s.holdings := by
  unfold State.patrolStep
  dsimp only
  split <;> split <;> rfl

theorem State.verifyStep_moves (ch : Chan) (tag : Tag) (j : Job) : Moves s.holdings (s.verifyStep ch tag j).holdings := by
  unfold State.verifyStep
  split
  · exact .refl
  · split
    · exact s.abortJob_moves .retired j.cet
    · exact .refl

theorem State.issue_moves (ch : Chan) : Moves s.holdings (s.issue ch).holdings := by
  unfold State.issue
  split
  · split
    · exact .refl
    · split
      · exact s.verifyStep_moves ch _ _
      · split
        · exact .of_eq (s.patrolStep_holdings ch _)
        · exact .refl
  · exact .refl

theorem State.replyExpiry_moves (ch : Chan) (tag : Tag) (q : Request) : Moves s.holdings (s.replyExpiry ch tag q).holdings := by
  have counted (t : State) (h : t.holdings = s.holdings) : Moves s.holdings
      (match q.kind with
        | .patrol => t.countSkipped ch
        | .verify => t.endRead ch tag q.number (some .noAnswer)).holdings := by
    rw [← h]
    split
    · exact .refl
    · exact t.endRead_moves ch tag q.number _
  unfold State.replyExpiry
  dsimp only
  split
  · refine Relation.ReflTransGen.trans ?_ (State.departActive_moves _ ch .failed)
    exact counted _ rfl
  · exact counted _ rfl

/-! ### The log, the classifier and the intake arbiter (R65 to R98) -/

theorem State.setFatal_holdings (c : FatalCause) : (s.setFatal c).holdings = s.holdings := by cases c <;> rfl

/-- R70: a stored record is OPEN. -/
theorem State.storeUe_moves (a : UeAppend) (h : s.uel.records.length < Config.uelSize) :
    Moves s.holdings (s.storeUe a).holdings :=
  .single (.append s.holdings (newRecord a s.uel.nextId s.now s.uel.policy.systemWindow) h fun hr => by cases hr)

theorem State.ueProposal_moves (a : UeAppend) (id : BitVec 8) : Moves s.holdings (s.ueProposal a id).holdings := by
  unfold State.ueProposal
  split
  · exact s.propose_moves _ _
  · exact .refl

theorem State.loseUe_holdings (a : UeAppend) : (s.loseUe a).holdings = s.holdings := by
  unfold State.loseUe
  dsimp only
  split
  · exact State.setFatal_holdings _ .overflow
  · rfl

theorem State.appendUe_moves (a : UeAppend) : Moves s.holdings (s.appendUe a).holdings := by
  unfold State.appendUe
  split
  · next h => exact (s.storeUe_moves a h).trans ((s.storeUe a).ueProposal_moves a _)
  · exact .of_eq (s.loseUe_holdings a)

theorem State.routeCorrected_moves (l : Loc) (cls : CeClass) (o : Origin) :
    Moves s.holdings (s.routeCorrected l cls o).holdings := by
  unfold State.routeCorrected
  split
  · next i h => exact s.suppress_moves h
  · exact s.takeCe_moves _

theorem State.classifyError_moves (l : Loc) (cls : ErrClass) (o : Origin) :
    Moves s.holdings (s.classifyError l cls o).holdings := by
  unfold State.classifyError
  split
  · split
    · exact s.routeCorrected_moves l _ o
    · exact s.appendUe_moves _
  · exact .refl

theorem State.malformedReply_moves (ch : Chan) (r : ScrubReply) (q : Request) :
    Moves s.holdings (s.malformedReply ch r q).holdings := by
  unfold State.malformedReply
  dsimp only
  split
  · exact .refl
  · exact (s.countMalformed ch).endRead_moves ch r.tag q.number _

theorem State.patrolReply_moves (ch : Chan) (r : ScrubReply) (q : Request) :
    Moves s.holdings (s.patrolReply ch r q).holdings := by
  unfold State.patrolReply
  split
  · exact .refl
  · exact s.routeCorrected_moves _ _ _
  · exact s.appendUe_moves _
  · exact .refl

theorem State.verifyReply_moves (ch : Chan) (r : ScrubReply) (q : Request) :
    Moves s.holdings (s.verifyReply ch r q).holdings := by
  unfold State.verifyReply
  dsimp only
  split
  · exact (s.endRead_moves _ _ _ _).trans (State.appendUe_moves _ _)
  · exact s.endRead_moves _ _ _ _

theorem State.classifyReply_moves (ch : Chan) (r : ScrubReply) : Moves s.holdings (s.classifyReply ch r).holdings := by
  unfold State.classifyReply
  split
  · exact .refl
  · dsimp only
    split
    · exact (s.freeTag ch r.tag).malformedReply_moves ch r _
    · split
      · exact (s.freeTag ch r.tag).patrolReply_moves ch r _
      · exact (s.freeTag ch r.tag).verifyReply_moves ch r _

theorem State.classify_moves (ch : Chan) (r : Report) : Moves s.holdings (s.classify ch r).holdings := by
  unfold State.classify
  split
  · exact s.classifyError_moves _ _ _
  · exact s.classifyReply_moves ch _

theorem State.takeFrom_moves (ch : Chan) : Moves s.holdings (s.takeFrom ch).holdings := by
  unfold State.takeFrom
  split
  · exact .refl
  · refine Relation.ReflTransGen.trans ?_ (State.classify_moves _ ch _)
    exact Moves.of_eq (State.returnCredit_holdings _ ch)

theorem State.takeSlot_moves : Moves s.holdings s.takeSlot.holdings := by
  unfold State.takeSlot
  split
  · exact .refl
  · refine Relation.ReflTransGen.trans ?_ (State.classifyError_moves _ _ _ _)
    exact Relation.ReflTransGen.refl

theorem State.take_moves : Moves s.holdings s.take.holdings := by
  unfold State.take
  split
  · exact .refl
  · exact s.takeFrom_moves _
  · exact s.takeSlot_moves

/-- R12: a window counted down is still one, and an absent one stays absent. -/
theorem State.lowerMs_moves : Moves s.holdings s.lowerMs.holdings := by
  let lower : UeRecord → UeRecord := fun r => { r with window := r.window.lower }
  refine .single (.records s.holdings (s.uel.records.map lower) (le_of_eq (List.length_map lower)) fun r hr => ?_)
  obtain ⟨q, hq, rfl⟩ := List.mem_map.mp hr
  exact ⟨q, hq, fun hs ha => by simp [lower, hs ha, Timer.lower]⟩

/-- R74, R75: a record of the log changed in place. -/
theorem State.modUe_moves (i : Nat) {f : UeRecord → UeRecord} (h : ∀ q : UeRecord, (f q).Sound) :
    Moves s.holdings (s.modUe i f).holdings := by
  refine .single (.records s.holdings (s.uel.records.modify i f) (le_of_eq (List.length_modify f _ i)) fun r hr => ?_)
  obtain ⟨k, hk, rfl⟩ := List.getElem_of_mem hr
  rw [List.getElem_modify]
  refine ⟨s.uel.records[k]'(by simpa using hk), List.getElem_mem _, fun hs => ?_⟩
  split
  · exact h _
  · exact hs

theorem State.handOver_moves (i : Nat) : Moves s.holdings (s.handOver i).holdings :=
  s.modUe_moves i fun q h => by cases h

theorem State.escalate_moves (i : Nat) : Moves s.holdings (s.escalate i).holdings := by
  have raised : Moves s.holdings ((s.modUe i fun r => { r with ack := .escalated, window := none }).setFlag .ueEscalated).holdings :=
    s.modUe_moves i fun q _ => rfl
  unfold State.escalate
  dsimp only
  split
  · exact raised.trans (Moves.of_eq (State.setFatal_holdings _ .escalation))
  · exact raised

theorem State.removeUe_moves (i : Nat) : Moves s.holdings (s.removeUe i).holdings :=
  .single (.records s.holdings _ (List.length_eraseIdx_le _ _) fun r hr => ⟨r, List.mem_of_mem_eraseIdx hr, id⟩)

/-- R32: the links to a removed range become absent. -/
theorem State.unlinkAll_moves (i : RetIdx) : Moves s.holdings (s.unlinkAll i).holdings := by
  refine moves_entries _ fun j f hf => ?_
  rw [show (s.unlinkAll i).cet.entries.get j = _ from Table.get_map s.cet.entries _ j] at hf
  obtain ⟨e, he, rfl⟩ := Option.map_eq_some_iff.mp hf
  refine ⟨e, he, ?_⟩
  unfold CetEntry.unlink
  split
  · exact ⟨rfl, id, id, id⟩
  · exact .refl e

theorem State.softReset_moves : Moves s.holdings s.softReset.holdings := by
  refine (s.emptyIntake.emptyVerify_moves).trans ?_
  unfold State.softReset
  dsimp only
  generalize ht : s.emptyIntake.emptyVerify.setScrubs _ = t
  rw [show s.emptyIntake.emptyVerify.holdings = t.holdings by subst ht; rfl]
  clear ht
  induction (List.finRange 8) generalizing t with
  | nil => exact .refl
  | cons ch rest ih =>
    rw [List.foldl_cons]
    refine Relation.ReflTransGen.trans ?_ (ih _)
    unfold State.resyncAtReset
    split
    · exact .refl
    · exact t.enterSyncing_moves ch

end

end Sys2Proof.Machine

/-! What the command engine, the purge and every command do to the holdings, and the laws of the tables, the log, the engine and the
settings that every step keeps. -/

namespace Sys2Proof.Machine

/-! ### The bodies of the commands -/

/-- What a command's body does to the holdings, by its answer: changes, the removal of a range (R56, R57), or the start of the purge
for a CONFIRMED range (R59). -/
inductive Carried (a : Holdings) : Holdings → Answer → Prop
  | done {b : Holdings} (code : ResultCode) (result : Pages) (h : Moves a b) : Carried a b (.done code result)
  | removed {b : Holdings} (code : ResultCode) (result : Pages) (i : RetIdx) (h : Moves a b) :
      Carried a { b with ranges := b.ranges.set i none } (.done code result)
  | begun {b : Holdings} (i : RetIdx) (h : Moves a b) (hc : b.Confirmed i) :
      Carried a { b with purge := some ⟨i, 0, 0⟩ } .running

/-- What a body does to the holdings of every state. -/
def BodyCarried (body : Body) : Prop := ∀ p ps s, Carried s.holdings (body p ps s).1.holdings (body p ps s).2

section
variable {s : State} {w : Word}

/-- A command that does nothing, or that changes no holding. -/
theorem Carried.same {a : Holdings} {code : ResultCode} {result : Pages} : Carried a a (.done code result) := .done _ _ .refl

theorem withChannel_carried {f : Chan → State × Answer} (h : ∀ ch, Carried s.holdings (f ch).1.holdings (f ch).2) :
    Carried s.holdings (withChannel s w f).1.holdings (withChannel s w f).2 := by
  unfold withChannel
  split
  · exact .same
  · exact h _

theorem withScrubChannel_carried {f : Chan → State × Answer} (h : ∀ ch, Carried s.holdings (f ch).1.holdings (f ch).2) :
    Carried s.holdings (withScrubChannel s w f).1.holdings (withScrubChannel s w f).2 := by
  unfold withScrubChannel
  split
  · exact .same
  · exact h _

theorem withCetIndex_carried {f : CetIdx → State × Answer} (h : ∀ i, Carried s.holdings (f i).1.holdings (f i).2) :
    Carried s.holdings (withCetIndex s w f).1.holdings (withCetIndex s w f).2 := by
  unfold withCetIndex
  split
  · exact .same
  · exact h _

theorem withCetEntry_carried {f : CetIdx → CetEntry → State × Answer}
    (h : ∀ i e, s.entry i = some e → Carried s.holdings (f i e).1.holdings (f i e).2) :
    Carried s.holdings (withCetEntry s w f).1.holdings (withCetEntry s w f).2 := by
  refine withCetIndex_carried fun i => ?_
  cases he : s.entry i with
  | none => exact .same
  | some e => exact h i e he

theorem withRetIndex_carried {f : RetIdx → State × Answer} (h : ∀ i, Carried s.holdings (f i).1.holdings (f i).2) :
    Carried s.holdings (withRetIndex s w f).1.holdings (withRetIndex s w f).2 := by
  unfold withRetIndex
  split
  · exact .same
  · exact h _

theorem withRetEntry_carried {needs : RetState} {f : RetIdx → RetEntry → State × Answer}
    (h : ∀ i e, s.retire.entries.get i = some e → e.state = needs → Carried s.holdings (f i e).1.holdings (f i e).2) :
    Carried s.holdings (withRetEntry s w needs f).1.holdings (withRetEntry s w needs f).2 := by
  refine withRetIndex_carried fun i => ?_
  cases he : s.retire.entries.get i with
  | none => exact .same
  | some e =>
    dsimp only
    split
    · exact h i e he ‹_›
    · exact .same

end

/-! The link commands and those of the engine alone. -/

theorem bodyConfigureChannel_carried : BodyCarried bodyConfigureChannel := fun _ _ s => withChannel_carried fun ch => by
  dsimp only
  split
  · exact .same
  · split
    · exact .same
    · split <;> exact .same

theorem bodyLinkEnable_carried : BodyCarried bodyLinkEnable := fun _ _ s => withChannel_carried fun ch => by
  split
  · exact .done _ _ (s.enterSyncing_moves ch)
  · exact .same

theorem bodyLinkDisable_carried : BodyCarried bodyLinkDisable := fun _ _ s => withChannel_carried fun ch => by
  split
  · exact .same
  · exact .done _ _ (s.goDown_moves ch)

theorem bodyResyncLink_carried : BodyCarried bodyResyncLink := fun _ _ s => withChannel_carried fun ch => by
  split
  · exact .done _ _ (s.enterSyncing_moves ch)
  · exact .same

theorem bodySetPolicy_carried : BodyCarried bodySetPolicy := fun _ ps s => by
  unfold bodySetPolicy
  dsimp only
  split
  · exact .same
  · split
    · exact .same
    · unfold PolicyWords.apply
      dsimp only
      split <;> exact .same

theorem bodyReadCounters_carried : BodyCarried bodyReadCounters := fun _ _ s => withChannel_carried fun ch => by
  split
  · exact .same
  · dsimp only
    split <;> exact .same

theorem bodyInjectReport_carried : BodyCarried bodyInjectReport := fun _ ps s => by
  unfold bodyInjectReport
  split
  · split <;> exact .same
  · exact .same

theorem bodySetAuthority_carried : BodyCarried bodySetAuthority := fun _ ps s => by
  unfold bodySetAuthority
  split <;> exact .same

theorem bodySetServiceFirst_carried : BodyCarried bodySetServiceFirst := fun _ ps s => by
  unfold bodySetServiceFirst
  split <;> exact .same

theorem bodyEngineReset_carried : BodyCarried bodyEngineReset := fun _ _ s => by
  have h := s.softReset_moves
  unfold bodyEngineReset okWords
  generalize s.softReset = t at h ⊢
  exact .done _ _ h

/-! The commands on the CET. -/

theorem bodyReadCet_carried : BodyCarried bodyReadCet := fun _ _ _ => withCetIndex_carried fun _ => .same

theorem bodyFindCet_carried : BodyCarried bodyFindCet := fun _ ps s => by
  unfold bodyFindCet
  split
  · exact .same
  · split
    · split <;> exact .same
    · exact .same

theorem bodyClearCetEntry_carried : BodyCarried bodyClearCetEntry := fun _ _ s =>
  withCetEntry_carried fun i _ _ => .done _ _ (s.freeEntry_moves i _)

theorem bodyClearCetAll_carried : BodyCarried bodyClearCetAll := fun _ _ s => .done _ _ (s.freeAll_moves _ _)

/-- R38: an entry is pinned while fewer than 96 are. -/
theorem bodyPinCet_carried : BodyCarried bodyPinCet := fun _ _ s => withCetEntry_carried fun i e he => by
  split
  · exact .same
  · split
    · exact .same
    · next h =>
      rw [State.modEntry_eq he]
      exact .done _ _ (.single (.pin s.holdings i e he (not_le.mp h)))

theorem bodyUnpinCet_carried : BodyCarried bodyUnpinCet := fun _ _ s => withCetEntry_carried fun i _ _ =>
  .done _ _ (s.modEntry_moves i fun e => ⟨rfl, (by simp), id, id⟩)

theorem bodyStartVerify_carried : BodyCarried bodyStartVerify := fun _ _ s => withCetEntry_carried fun i e _ => by
  split
  · split
    · exact .done _ _ (s.createJob_moves i e.key.channel)
    · exact .same
  · exact .same

/-! The commands on the list. -/

theorem bodyReadRetire_carried : BodyCarried bodyReadRetire := fun _ _ _ => withRetIndex_carried fun _ => .same

theorem bodyFindRetire_carried : BodyCarried bodyFindRetire := fun _ ps s => by
  unfold bodyFindRetire
  split
  · exact .same
  · split
    · split <;> exact .same
    · exact .same

/-- R54: the range added overlaps no other, and is CONFIRMED from the start. -/
theorem bodyAddRetire_carried : BodyCarried bodyAddRetire := fun _ ps s => by
  unfold bodyAddRetire
  split
  · exact .same
  · split
    · split
      · exact .same
      · rename_i r _ _ _ ho
        split
        · exact .same
        · next i hf =>
          refine .begun i (s.listRange_moves (e := addedEntry r s.now) rfl ho hf ?_) ⟨_, Table.get_set_self _ _ _, rfl⟩
          simp [RetEntry.Sound, addedEntry]
    · exact .same

/-- R55: the range confirmed is listed already. -/
theorem bodyConfirmRetire_carried : BodyCarried bodyConfirmRetire := fun _ _ s => withRetEntry_carried fun i e he hs =>
  .begun i (s.setRetEntry_moves (b := { e with state := .confirmed, confirmed := some s.now }) he
    ⟨rfl, fun _ => by simp [RetEntry.Sound], fun _ => rfl⟩) ⟨_, Table.get_set_self _ _ _, rfl⟩

/-- R56, R57: a range leaves the list, and the links that name it become absent. -/
theorem removal_carried (s : State) (i : RetIdx) (code : ResultCode) (result : Pages) :
    Carried s.holdings ((s.setRetEntry i none).unlinkAll i).holdings (.done code result) :=
  .removed code result i (s.unlinkAll_moves i)

theorem Carried.after_moves {a b c : Holdings} {answer : Answer} (h : Moves a b) (k : Carried b c answer) : Carried a c answer := by
  cases k with
  | done code result k => exact .done code result (h.trans k)
  | removed code result i k => exact .removed code result i (h.trans k)
  | begun i k hc => exact .begun i (h.trans k) hc

theorem bodyRejectRetire_carried : BodyCarried bodyRejectRetire := fun _ _ s => withRetEntry_carried fun i e _ _ => by
  split
  · exact (removal_carried (s.freeEntry _ _) i _ _).after_moves (s.freeEntry_moves _ _)
  · exact removal_carried s i _ _

theorem bodyRemoveRetire_carried : BodyCarried bodyRemoveRetire := fun _ _ s => withRetEntry_carried fun i _ _ _ =>
  removal_carried s i _ _

/-! The commands on the log. -/

theorem bodyReadUe_carried : BodyCarried bodyReadUe := fun _ ps s => by
  unfold bodyReadUe
  split
  · exact .same
  · split <;> exact .same

theorem bodyAckUe_carried : BodyCarried bodyAckUe := fun p ps s => by
  unfold bodyAckUe
  dsimp only
  split
  · exact .same
  · split
    · exact .same
    · split
      · exact .same
      · split
        · exact .done _ _ (s.removeUe_moves _)
        · exact .same

theorem bodyReadUeOverflow_carried : BodyCarried bodyReadUeOverflow := fun _ ps s => by
  unfold bodyReadUeOverflow
  split
  · exact .same
  · dsimp only
    split <;> exact .same

/-! The actions of SCRUB_CONTROL. -/

theorem bodyScrubStart_carried : BodyCarried bodyScrubStart := fun _ _ s => withScrubChannel_carried fun ch => by
  split
  · exact .same
  · split <;> exact .same

theorem bodyScrubStop_carried : BodyCarried bodyScrubStop := fun _ _ _ => withScrubChannel_carried fun _ => .same

theorem bodySetCursor_carried : BodyCarried bodySetCursor := fun _ _ s => withScrubChannel_carried fun ch => by
  split
  · exact .same
  · split
    · split <;> exact .same
    · exact .same

theorem bodySetPacing_carried : BodyCarried bodySetPacing := fun _ _ s => withScrubChannel_carried fun ch => by
  dsimp only
  split <;> exact .same

theorem bodySetHoldPolicy_carried : BodyCarried bodySetHoldPolicy := fun _ _ s => withScrubChannel_carried fun ch => by
  dsimp only
  split
  · exact .same
  · split <;> exact .same

theorem bodySetTimeout_carried : BodyCarried bodySetTimeout := fun _ _ s => withScrubChannel_carried fun ch => by
  dsimp only
  split <;> exact .same

/-! ### What every command but FULL_RESET does -/

def Holdings.mail (a : Holdings) : Port → MailState
  | .system => a.sysMail
  | .service => a.svcMail

def Holdings.setMail (a : Holdings) (p : Port) (st : MailState) : Holdings :=
  match p with
  | .system => { a with sysMail := st }
  | .service => { a with svcMail := st }

/-- R164: no mailbox is RUNNING. -/
def Holdings.Idle (a : Holdings) : Prop := a.sysMail ≠ .running ∧ a.svcMail ≠ .running

/-- R61: the purge ends and the RUNNING command is DONE. -/
def Holdings.endPurge (a : Holdings) : Holdings :=
  let ended := { a with purge := none }
  if a.sysMail = .running then ended.setMail .system .done
  else if a.svcMail = .running then ended.setMail .service .done
  else ended

/-- What a command other than FULL_RESET may do to the holdings: an event's changes, a mailbox's own steps, the take of a command, and
a visit of the purge. -/
inductive HoldingsStep : Holdings → Holdings → Prop
  | moves {a b : Holdings} (h : Moves a b) : HoldingsStep a b
  | mailbox (a : Holdings) (p : Port) (st : MailState) (h : a.mail p ≠ .running) (hs : st ≠ .running) :
      HoldingsStep a (a.setMail p st)
  | completed {a b : Holdings} (p : Port) {code : ResultCode} {result : Pages} (hi : a.Idle)
      (h : Carried (a.setMail p .running) b (.done code result)) : HoldingsStep a (b.setMail p .done)
  | begun {a b : Holdings} (p : Port) (hi : a.Idle) (h : Carried (a.setMail p .running) b .running) : HoldingsStep a b
  | visited {a b : Holdings} {g : Purge} (n : Nat) (hg : a.purge = some g) (h : Moves a b) (hn : n ≤ g.purged + 1)
      (hv : g.next + 1 < 128) : HoldingsStep a { b with purge := some { g with next := g.next + 1, purged := n } }
  | ended {a b : Holdings} (h : Moves a b) : HoldingsStep a b.endPurge

/-- R164, R165: the take of a command, by what its body does. -/
theorem engineTake_holdings {body : Body} (hb : BodyCarried body) (s : State) (names : Word → Table Word 6 → Bool)
    (a : Admission) : HoldingsStep s.holdings (s.engineTake names a body).holdings := by
  unfold State.engineTake
  cases hc : s.arbiterChoice with
  | none => exact .moves .refl
  | some p =>
    have idle : s.holdings.Idle := by
      have : s.engineIdle = true := by
        by_contra h
        simp [State.arbiterChoice, h] at hc
      rwa [State.engineIdle, Bool.and_eq_true, bne_iff_ne, bne_iff_ne] at this
    have latched : (s.latch p).holdings = s.holdings.setMail p .running := by cases p <;> rfl
    have complete (t : State) (code : ResultCode) (result : Pages) :
        (t.complete p code result).holdings = t.holdings.setMail p .done := by cases p <;> rfl
    dsimp only
    split
    · unfold State.carryOut
      split
      · have carried := hb p ((s.latch p).mail p).latched (s.latch p)
        rw [latched] at carried
        generalize body p ((s.latch p).mail p).latched (s.latch p) = x at carried
        obtain ⟨t, ⟨code, result⟩ | _⟩ := x
        · rw [complete]
          exact .completed p idle carried
        · exact .begun p idle carried
      · rw [complete, latched]
        exact .completed (code := .ok) (result := pages [] [] []) p idle .same
    · exact .moves .refl

theorem State.endPurge_holdings (s : State) (g : Purge) (n : Nat) : (s.endPurge g n).holdings = s.holdings.endPurge := by
  unfold State.endPurge State.runningPort Holdings.endPurge
  dsimp only
  by_cases h1 : s.sysMail.state = .running
  · rw [if_pos h1, if_pos (show s.holdings.sysMail = .running from h1)]; rfl
  · rw [if_neg h1, if_neg (show ¬s.holdings.sysMail = .running from h1)]
    by_cases h2 : s.svcMail.state = .running
    · rw [if_pos h2, if_pos (show s.holdings.svcMail = .running from h2)]; rfl
    · rw [if_neg h2, if_neg (show ¬s.holdings.svcMail = .running from h2)]; rfl

/-- R60: a visit frees at most the entry visited. -/
theorem State.visit_moves (s : State) (g : Purge) (i : CetIdx) :
    Moves s.holdings (s.visit g i).1.holdings ∧ (s.visit g i).2 ≤ g.purged + 1 := by
  unfold State.visit
  split
  · exact ⟨s.freeEntry_moves i _, le_refl _⟩
  · exact ⟨.refl, Nat.le_succ _⟩

theorem State.purgeStep_holdings (s : State) {g : Purge} (hg : s.engine.purge = some g) :
    HoldingsStep s.holdings (s.purgeStep g).holdings := by
  unfold State.purgeStep
  split
  · rw [State.endPurge_holdings]
    exact .ended .refl
  · next i _ =>
    obtain ⟨moves, purged⟩ := s.visit_moves g i
    dsimp only
    split
    · exact .visited _ hg moves purged ‹_›
    · rw [State.endPurge_holdings]
      exact .ended moves

/-- A write to a mailbox, or the read that empties it. -/
theorem State.setMail_step (s : State) (p : Port) (m : Mailbox)
    (h : m.state = (s.mail p).state ∨ (s.mail p).state ≠ .running ∧ m.state ≠ .running) :
    HoldingsStep s.holdings (s.setMail p m).holdings := by
  have set : (s.setMail p m).holdings = s.holdings.setMail p m.state := by cases p <;> rfl
  have mail : s.holdings.mail p = (s.mail p).state := by cases p <;> rfl
  rw [set]
  rcases h with h | ⟨h1, h2⟩
  · rw [h]
    exact .moves (.of_eq (by cases p <;> rfl))
  · exact .mailbox _ p _ (mail ▸ h1) h2

theorem Mailbox.writeCommand_state (m : Mailbox) (v : Word) :
    (m.writeCommand v).state = m.state ∨ m.state ≠ .running ∧ (m.writeCommand v).state ≠ .running := by
  unfold Mailbox.writeCommand
  split
  · next h => exact .inr ⟨by rcases h with h | h <;> simp [h], by simp⟩
  · exact .inl rfl

theorem Mailbox.writeParam_state (m : Mailbox) (k : Fin 6) (v : Word) : (m.writeParam k v).state = m.state := by
  unfold Mailbox.writeParam
  split <;> rfl

theorem Mailbox.readResult0_state (m : Mailbox) :
    m.readResult0.state = m.state ∨ m.state ≠ .running ∧ m.readResult0.state ≠ .running := by
  unfold Mailbox.readResult0
  split
  · next h => exact .inr ⟨by simp [h], by simp⟩
  · exact .inl rfl

/-- R184: while RST_N is asserted nothing happens, and otherwise the meaning decides. -/
theorem whileRunning_holdings {s t : State} {f : State → State} (h : s.whileRunning f = .next t)
    (hf : HoldingsStep s.holdings (f s).holdings) : HoldingsStep s.holdings t.holdings := by
  cases hr : s.rst with
  | true => rw [State.whileRunning_held hr] at h; cases h; exact .moves .refl
  | false => rw [State.whileRunning_running hr] at h; cases h; exact hf

theorem command_holdings {body : Body} {s t : State} {names : Word → Table Word 6 → Bool} {a : Admission}
    (h : s.whileRunning (fun s => s.engineTake names a body) = .next t) (hb : BodyCarried body) :
    HoldingsStep s.holdings t.holdings :=
  whileRunning_holdings h (engineTake_holdings hb s names a)

theorem event_holdings {s t : State} {f : State → State} (h : s.whileRunning f = .next t)
    (hf : Moves s.holdings (f s).holdings) : HoldingsStep s.holdings t.holdings :=
  whileRunning_holdings h (.moves hf)

theorem result0Read_holdings (s : State) (p : Port) (edge : Bool) (v : Word) :
    HoldingsStep s.holdings (if edge then (s.drive p v).setMail p (s.mail p).readResult0 else s.drive p v).holdings := by
  have driven : (s.drive p v).holdings = s.holdings := by cases p <;> rfl
  split
  · rw [← driven]
    refine State.setMail_step _ p _ ?_
    have : (s.drive p v).mail p = s.mail p := by cases p <;> rfl
    rw [this]
    exact Mailbox.readResult0_state _
  · exact .moves (.of_eq driven)

theorem registerWriteIgnored_holdings {s t : State} {p : Port} {index : Fin 64} {v : Word}
    (h : execRegisterWriteIgnored p index v s = .next t) : HoldingsStep s.holdings t.holdings := by
  unfold execRegisterWriteIgnored at h
  split at h
  · cases h; exact .moves .refl
  · cases h

theorem unknownKindFrame_holdings {s t : State} {ch : Chan} {seq : BitVec 8} {kind : Byte}
    (h : execUnknownKindFrame ch seq kind s = .next t) : HoldingsStep s.holdings t.holdings := by
  unfold execUnknownKindFrame at h
  split at h
  · cases h
  · exact event_holdings h (.of_eq (s.arrive_holdings ch seq fun _ => rfl))

theorem fullResetEnd_holdings {s t : State} (h : execFullResetEnd s = .next t) : HoldingsStep s.holdings t.holdings := by
  cases h
  split <;> exact .moves .refl

/-- Every command but FULL_RESET. -/
theorem exec_holdings {c : Instr} {s t : State} (h : exec c s = .next t) (hc : c ≠ .fullReset) :
    HoldingsStep s.holdings t.holdings := by
  unfold exec at h
  cases c with
  | fullReset => exact absurd rfl hc
  | fullResetEnd => exact fullResetEnd_holdings h
  | pacingBaseTick => exact event_holdings h .refl
  | eventClockAdvance =>
    refine event_holdings h ?_
    split
    · exact s.lowerMs_moves
    · exact .refl
  | commandWrite p v => exact whileRunning_holdings h (s.setMail_step p _ (Mailbox.writeCommand_state _ v))
  | paramWrite p k v => exact whileRunning_holdings h (s.setMail_step p _ (.inl (Mailbox.writeParam_state _ k v)))
  | mailboxStatusWrite p v => exact whileRunning_holdings h (s.setMail_step p _ (.inl rfl))
  | result0Read p edge => exact whileRunning_holdings h (result0Read_holdings s p edge _)
  | eventClearWrite => exact event_holdings h .refl
  | lineMaskWrite p v => exact event_holdings h (.of_eq (by cases p <;> rfl))
  | registerWriteIgnored => exact registerWriteIgnored_holdings h
  | badCommand => exact command_holdings h fun _ _ _ => .same
  | configureChannel => exact command_holdings h bodyConfigureChannel_carried
  | linkEnable => exact command_holdings h bodyLinkEnable_carried
  | linkDisable => exact command_holdings h bodyLinkDisable_carried
  | resyncLink => exact command_holdings h bodyResyncLink_carried
  | setPolicy => exact command_holdings h bodySetPolicy_carried
  | readCet => exact command_holdings h bodyReadCet_carried
  | findCet => exact command_holdings h bodyFindCet_carried
  | clearCetEntry => exact command_holdings h bodyClearCetEntry_carried
  | clearCetAll => exact command_holdings h bodyClearCetAll_carried
  | pinCet => exact command_holdings h bodyPinCet_carried
  | unpinCet => exact command_holdings h bodyUnpinCet_carried
  | startVerify => exact command_holdings h bodyStartVerify_carried
  | readRetire => exact command_holdings h bodyReadRetire_carried
  | findRetire => exact command_holdings h bodyFindRetire_carried
  | addRetire => exact command_holdings h bodyAddRetire_carried
  | confirmRetire => exact command_holdings h bodyConfirmRetire_carried
  | rejectRetire => exact command_holdings h bodyRejectRetire_carried
  | removeRetire => exact command_holdings h bodyRemoveRetire_carried
  | readUe => exact command_holdings h bodyReadUe_carried
  | ackUe => exact command_holdings h bodyAckUe_carried
  | readUeOverflow => exact command_holdings h bodyReadUeOverflow_carried
  | scrubStart => exact command_holdings h bodyScrubStart_carried
  | scrubStop => exact command_holdings h bodyScrubStop_carried
  | setCursor => exact command_holdings h bodySetCursor_carried
  | setPacing => exact command_holdings h bodySetPacing_carried
  | setHoldPolicy => exact command_holdings h bodySetHoldPolicy_carried
  | setTimeout => exact command_holdings h bodySetTimeout_carried
  | readCounters => exact command_holdings h bodyReadCounters_carried
  | injectReport => exact command_holdings h bodyInjectReport_carried
  | readStatus => exact command_holdings h fun _ _ _ => .same
  | setAuthority => exact command_holdings h bodySetAuthority_carried
  | setServiceFirst => exact command_holdings h bodySetServiceFirst_carried
  | clearFatal => exact command_holdings h fun _ _ _ => .same
  | engineReset => exact command_holdings h bodyEngineReset_carried
  | scrubControlBadAction => exact command_holdings h fun _ _ _ => .same
  | purgeVisit =>
    refine whileRunning_holdings h ?_
    split
    · exact .moves .refl
    · exact s.purgeStep_holdings ‹_›
  | error ch seq | scrubReply ch seq =>
    exact event_holdings h (.of_eq (s.arrive_holdings ch seq fun t => (t.accept ch).joinQueue_holdings ch _))
  | hold ch seq | resume ch seq => exact event_holdings h (.of_eq (s.arrive_holdings ch seq fun _ => rfl))
  | sync ch seq => exact event_holdings h (s.arriveSync_moves ch seq)
  | unknownKindFrame => exact unknownKindFrame_holdings h
  | frameCheckFailure ch => exact event_holdings h (s.arriveFailing_moves ch)
  | syncAttemptExpiry ch =>
    refine event_holdings h ?_
    split
    · exact .of_eq (s.attemptExpiry_holdings ch)
    · exact .refl
  | frameTransmission ch =>
    refine event_holdings h ?_
    split <;> exact .refl
  | frameTransmissionEnd ch => exact event_holdings h .refl
  | intakeTake => exact event_holdings h s.take_moves
  | issueEvent ch => exact event_holdings h (s.issue_moves ch)
  | pacingExpiry ch =>
    refine event_holdings h ?_
    split <;> exact .refl
  | replyTimeout ch tag =>
    refine event_holdings h ?_
    split
    · exact .refl
    · split
      · exact s.replyExpiry_moves ch tag _
      · exact .refl
  | holdCeilingExpiry ch =>
    refine event_holdings h ?_
    split <;> exact .refl
  | systemWindowExpiry position =>
    refine event_holdings h ?_
    split
    · exact s.handOver_moves _
    · exact .refl
  | serviceWindowExpiry position =>
    refine event_holdings h ?_
    split
    · exact s.escalate_moves _
    · exact .refl
  | leakExpiry =>
    refine event_holdings h ?_
    split
    · exact s.leakTable_moves
    · exact .refl

end Sys2Proof.Machine

/-! The laws of the CET, the list, the log and the engine along what a command does to the holdings (R14, R42, R59, R65, R164). -/

namespace Sys2Proof.Machine

/-! ### The laws of the tables and of the log

They do not speak of the mailboxes or of the purge. -/

section
variable {a b : Holdings}

/-- The tables and the log are the same. -/
def Holdings.SameTables (a b : Holdings) : Prop :=
  b.entries = a.entries ∧ b.ranges = a.ranges ∧ b.records = a.records

theorem Holdings.setMail_tables (a : Holdings) (p : Port) (st : MailState) : a.SameTables (a.setMail p st) := by
  cases p <;> exact ⟨rfl, rfl, rfl⟩

theorem Holdings.setPurge_tables (a : Holdings) (x : Option Purge) : a.SameTables { a with purge := x } := ⟨rfl, rfl, rfl⟩

theorem Holdings.endPurge_tables (a : Holdings) : a.SameTables a.endPurge := by
  unfold Holdings.endPurge
  dsimp only
  split
  · exact ⟨rfl, rfl, rfl⟩
  · split <;> exact ⟨rfl, rfl, rfl⟩

/-- What a law of the tables and of the log has to be kept by. -/
structure TablesKeep (P : Holdings → Prop) : Prop where
  same    : ∀ {a b : Holdings}, a.SameTables b → P a → P b
  move    : ∀ {a b : Holdings}, Move a b → P a → P b
  removed : ∀ (a : Holdings) (i : RetIdx), P a → P { a with ranges := a.ranges.set i none }

variable {P : Holdings → Prop}

theorem TablesKeep.carried (k : TablesKeep P) {x : Answer} (h : Carried a b x) (ha : P a) : P b := by
  cases h with
  | done _ _ h => exact h.keeps k.move ha
  | removed _ _ i h => exact k.removed _ i (h.keeps k.move ha)
  | begun i h => exact k.same (Holdings.setPurge_tables _ _) (h.keeps k.move ha)

theorem TablesKeep.along (k : TablesKeep P) (h : HoldingsStep a b) (ha : P a) : P b := by
  cases h with
  | moves h => exact h.keeps k.move ha
  | mailbox p st => exact k.same (a.setMail_tables p st) ha
  | completed p _ h => exact k.same (Holdings.setMail_tables _ p _) (k.carried h (k.same (a.setMail_tables p _) ha))
  | begun p _ h => exact k.carried h (k.same (a.setMail_tables p _) ha)
  | visited n _ h => exact k.same (Holdings.setPurge_tables _ _) (h.keeps k.move ha)
  | ended h => exact k.same (Holdings.endPurge_tables _) (h.keeps k.move ha)

theorem Holdings.CetLaw.keep : TablesKeep Holdings.CetLaw where
  same h law := by
    obtain ⟨entries, -, -⟩ := h
    simpa only [Holdings.CetLaw, entries] using law
  move := Move.cetLaw
  removed _ _ law := law

theorem Holdings.ListLaw.keep : TablesKeep Holdings.ListLaw where
  same h law := by
    obtain ⟨-, ranges, -⟩ := h
    simpa only [Holdings.ListLaw, ranges] using law
  move := Move.listLaw
  removed a i law := by
    obtain ⟨disjoint, sound⟩ := law
    have old (j : RetIdx) (c : RetEntry) (h : (a.ranges.set i none).get j = some c) : a.ranges.get j = some c := by
      rw [Table.get_set] at h
      split at h
      · cases h
      · exact h
    exact ⟨fun j k c d hc hd => disjoint j k c d (old j c hc) (old k d hd), fun j c hc => sound j c (old j c hc)⟩

theorem Holdings.UelLaw.keep : TablesKeep Holdings.UelLaw where
  same h law := by
    obtain ⟨-, -, records⟩ := h
    simpa only [Holdings.UelLaw, records] using law
  move := Move.uelLaw
  removed _ _ law := law

end

/-! ### The law of the engine -/

section
variable {a b : Holdings}

/-- R59, R165: the purge serves a CONFIRMED entry, has an index left to visit and has purged no more entries than it has visited. -/
def Holdings.Serves (a : Holdings) (g : Purge) : Prop := g.next < 128 ∧ g.purged ≤ g.next ∧ a.Confirmed g.serves

/-- R59, R164, R165. -/
def Holdings.EngineLaw (a : Holdings) : Prop :=
  ¬(a.sysMail = .running ∧ a.svcMail = .running) ∧
  (a.purge.isSome ↔ a.sysMail = .running ∨ a.svcMail = .running) ∧
  ∀ g, a.purge = some g → a.Serves g

theorem State.engineLaw_iff {s : State} : s.EngineLaw ↔ s.holdings.EngineLaw := Iff.rfl

/-- R164: with no mailbox RUNNING and no purge there is nothing to hold. -/
theorem Holdings.EngineLaw.of_idle (hi : a.Idle) (hp : a.purge = none) : a.EngineLaw := by
  obtain ⟨h1, h2⟩ := hi
  exact ⟨fun h => h1 h.1, by simp [hp, h1, h2], by simp [hp]⟩

/-- R164: with no mailbox RUNNING no purge is in progress. -/
theorem Holdings.EngineLaw.purge_none (law : a.EngineLaw) (hi : a.Idle) : a.purge = none := by
  obtain ⟨-, running, -⟩ := law
  obtain ⟨h1, h2⟩ := hi
  simpa [h1, h2] using running

/-- A law that the mailboxes and the purge decide is kept where those and the CONFIRMED entries are. -/
theorem Holdings.EngineLaw.of_same (law : a.EngineLaw) (h : a.SameEngine b) : b.EngineLaw := by
  obtain ⟨one, running, serves⟩ := law
  refine ⟨?_, ?_, fun g hg => ?_⟩
  · rwa [h.sysMail, h.svcMail]
  · rwa [h.sysMail, h.svcMail, h.purge]
  · obtain ⟨left, visited, confirmed⟩ := serves g (h.purge ▸ hg)
    exact ⟨left, visited, h.confirmed _ confirmed⟩

@[simp] theorem Holdings.setMail_purge (a : Holdings) (p : Port) (st : MailState) : (a.setMail p st).purge = a.purge := by
  cases p <;> rfl

/-- R164: of two mailboxes that are not both RUNNING, one not RUNNING may take another state that is not RUNNING. -/
theorem Holdings.EngineLaw.setMail (law : a.EngineLaw) {p : Port} {st : MailState} (h : a.mail p ≠ .running)
    (hs : st ≠ .running) : (a.setMail p st).EngineLaw := by
  obtain ⟨one, running, serves⟩ := law
  cases p with
  | system =>
    have h : a.sysMail ≠ .running := h
    exact ⟨fun both => hs both.1, by simpa [Holdings.setMail, h, hs] using running, serves⟩
  | service =>
    have h : a.svcMail ≠ .running := h
    exact ⟨fun both => hs both.2, by simpa [Holdings.setMail, h, hs] using running, serves⟩

/-- R165: a command whose body completes leaves the purge and the mailboxes as they are. -/
theorem Carried.done_engine {x : Answer} (h : Carried a b x) (hx : x ≠ .running) :
    b.sysMail = a.sysMail ∧ b.svcMail = a.svcMail ∧ b.purge = a.purge := by
  cases h with
  | done _ _ h => exact ⟨h.sameEngine.sysMail, h.sameEngine.svcMail, h.sameEngine.purge⟩
  | removed _ _ _ h => exact ⟨h.sameEngine.sysMail, h.sameEngine.svcMail, h.sameEngine.purge⟩
  | begun => exact absurd rfl hx

/-- R164, R165: the engine is idle again after a command that completes at once. -/
theorem Holdings.EngineLaw.completed (law : a.EngineLaw) (hi : a.Idle) {p : Port} {code : ResultCode} {result : Pages}
    (h : Carried (a.setMail p .running) b (.done code result)) : (b.setMail p .done).EngineLaw := by
  obtain ⟨sys, svc, purge⟩ := h.done_engine nofun
  obtain ⟨h1, h2⟩ := hi
  refine .of_idle ?_ (by rw [Holdings.setMail_purge, purge, Holdings.setMail_purge, law.purge_none ⟨h1, h2⟩])
  cases p with
  | system => exact ⟨nofun, fun hr => h2 (svc.symm.trans hr)⟩
  | service => exact ⟨fun hr => h1 (sys.symm.trans hr), nofun⟩

/-- R59: the command that starts the purge is the one RUNNING, and the purge begins at index 0. -/
theorem Holdings.EngineLaw.begun (hi : a.Idle) {p : Port} (h : Carried (a.setMail p .running) b .running) : b.EngineLaw := by
  obtain ⟨h1, h2⟩ := hi
  cases h with
  | @begun b i h hc =>
    have sys := h.sameEngine.sysMail
    have svc := h.sameEngine.svcMail
    have serves (g : Purge) (hg : some ⟨i, 0, 0⟩ = some g) : Holdings.Serves { b with purge := some ⟨i, 0, 0⟩ } g := by
      cases hg
      exact ⟨Nat.succ_pos 127, le_refl 0, hc⟩
    cases p with
    | system => exact ⟨fun both => h2 (svc.symm.trans both.2), by simp [sys, Holdings.setMail], serves⟩
    | service => exact ⟨fun both => h1 (sys.symm.trans both.1), by simp [svc, Holdings.setMail], serves⟩

/-- R60: a visit goes on to the next index, with at most one entry more purged. -/
theorem Holdings.EngineLaw.visited (law : a.EngineLaw) {g : Purge} (hg : a.purge = some g) {n : Nat} (hn : n ≤ g.purged + 1)
    (hv : g.next + 1 < 128) : Holdings.EngineLaw { a with purge := some { g with next := g.next + 1, purged := n } } := by
  obtain ⟨one, running, serves⟩ := law
  obtain ⟨-, visited, confirmed⟩ := serves g hg
  refine ⟨one, by simpa [hg] using running, fun d hd => ?_⟩
  cases hd
  exact ⟨hv, hn.trans (Nat.succ_le_succ visited), confirmed⟩

/-- R61, R164: the end of the purge leaves no mailbox RUNNING, because at most one was. -/
theorem Holdings.EngineLaw.endPurge (law : a.EngineLaw) : a.endPurge.EngineLaw := by
  obtain ⟨one, -, -⟩ := law
  unfold Holdings.endPurge
  dsimp only
  split
  · next sys => exact .of_idle ⟨nofun, fun svc => one ⟨sys, svc⟩⟩ rfl
  · next sys =>
    split
    · exact .of_idle ⟨sys, nofun⟩ rfl
    · next svc => exact .of_idle ⟨sys, svc⟩ rfl

theorem HoldingsStep.engineLaw (h : HoldingsStep a b) (law : a.EngineLaw) : b.EngineLaw := by
  cases h with
  | moves h => exact law.of_same h.sameEngine
  | mailbox p st h hs => exact law.setMail h hs
  | completed p hi h => exact law.completed hi h
  | begun p hi h => exact .begun hi h
  | visited n hg h hn hv => exact (law.of_same h.sameEngine).visited (h.sameEngine.purge.trans hg) hn hv
  | ended h => exact (law.of_same h.sameEngine).endPurge

end

/-! ### The laws at Full reset -/

theorem State.held_cetLaw : State.held.holdings.CetLaw := by
  have empty (i : CetIdx) : State.held.holdings.entries.get i = none := Table.get_fill _ _
  refine ⟨fun i e h => ?_, fun i j e f h => ?_, ?_⟩
  · rw [empty] at h; cases h
  · rw [empty] at h; cases h
  · decide +kernel

theorem State.held_listLaw : State.held.holdings.ListLaw := by
  have empty (i : RetIdx) : State.held.holdings.ranges.get i = none := Table.get_fill _ _
  refine ⟨fun i j e f h => ?_, fun i e h => ?_⟩
  · rw [empty] at h; cases h
  · rw [empty] at h; cases h

theorem State.held_uelLaw : State.held.holdings.UelLaw := ⟨Nat.zero_le _, fun _ h => absurd h List.not_mem_nil⟩

theorem State.held_engineLaw : State.held.holdings.EngineLaw := .of_idle ⟨nofun, nofun⟩ rfl

/-! ### The laws along a step -/

/-- R1, R184: a step leaves the holdings, or resets them, or does to them what a command may do. -/
theorem step_holdings {s t : State} (h : step s = .next t) :
    t.holdings = State.held.holdings ∨ HoldingsStep s.holdings t.holdings := by
  unfold step at h
  split at h
  · cases h; exact .inr (.moves .refl)
  · next c rest _ =>
    by_cases hc : c = .fullReset
    · subst hc
      cases h
      exact .inl rfl
    · exact .inr (exec_holdings (s := s.setPending rest) h hc)

/-- A law of the tables and of the log that holds at Full reset is kept by every step. -/
theorem TablesKeep.step_keeps {P : Holdings → Prop} (k : TablesKeep P) (held : P State.held.holdings) {s t : State}
    (hs : P s.holdings) (h : step s = .next t) : P t.holdings := by
  rcases step_holdings h with h | h
  · exact h ▸ held
  · exact k.along h hs

theorem step_engineLaw {s t : State} (law : s.EngineLaw) (h : step s = .next t) : t.EngineLaw := by
  rw [State.engineLaw_iff] at law ⊢
  rcases step_holdings h with h | h
  · exact h ▸ State.held_engineLaw
  · exact h.engineLaw law

end Sys2Proof.Machine

/-! The law of the settings, which the four commands that carry bounded values keep by their tests and every other command because
it changes none of those settings (R15, R68, R107, R127, R144, R147, R149); and the statement of every law. -/

namespace Sys2Proof.Machine

/-! ### The law of the settings -/

/-- R15, R68, R107, R147. -/
structure TableSettings.InRange (x : TableSettings) : Prop where
  threshold     : 1 ≤ x.cet.threshold ∧ x.cet.threshold ≤ 255
  leakInterval  : x.cet.leakInterval ≤ 65535
  systemWindow  : x.uel.systemWindow ≤ 65535
  serviceWindow : x.uel.serviceWindow ≤ 65535
  batch         : 1 ≤ x.batch ∧ x.batch ≤ 6
  verify        : 1 ≤ x.persist ∧ x.persist ≤ x.reads ∧ x.reads ≤ 15

/-- R127. -/
structure ScrubSettings.InRange (x : ScrubSettings) : Prop where
  pacing       : 1 ≤ x.pacing ∧ x.pacing ≤ 65535
  segment      : 1 ≤ x.segment ∧ x.segment ≤ 64
  ceiling      : x.ceiling ≤ 65535
  replyTimeout : 1 ≤ x.replyTimeout ∧ x.replyTimeout ≤ 255

/-- Every setting holds one of its values. -/
structure Settings.InRange (a : Settings) : Prop where
  tables : a.tables.InRange
  scrub  : ∀ ch, (a.scrub ch).InRange

theorem State.settingsLaw_iff {s : State} : s.SettingsLaw ↔ s.settings.InRange := by
  constructor
  · rintro ⟨threshold, leak, system, service, batch, verify, scrub⟩
    refine ⟨⟨threshold, leak, system, service, batch, verify⟩, fun ch => ?_⟩
    obtain ⟨pacing, segment, ceiling, timeout⟩ := scrub ch
    exact ⟨pacing, segment, ceiling, timeout⟩
  · rintro ⟨⟨threshold, leak, system, service, batch, verify⟩, scrub⟩
    exact ⟨threshold, leak, system, service, batch, verify,
      fun ch => ⟨(scrub ch).pacing, (scrub ch).segment, (scrub ch).ceiling, (scrub ch).replyTimeout⟩⟩

theorem Settings.InRange.setScrub {a : Settings} (h : a.InRange) (ch : Chan) {x : ScrubSettings} (hx : x.InRange) :
    (a.setScrub ch x).InRange where
  tables := h.tables
  scrub d := by
    by_cases hd : d = ch
    · subst hd; simpa [Settings.setScrub] using hx
    · simpa [Settings.setScrub, hd] using h.scrub d

/-- R169, R144: the commands that carry a setting with bounds. -/
def SetsBounded (c : Instr) : Prop := c = .setPolicy ∨ c = .setPacing ∨ c = .setHoldPolicy ∨ c = .setTimeout

/-- What another command may do to the settings leaves the bounded ones as they are. -/
theorem SettingsStep.inRange {c : Instr} {a b : Settings} (h : SettingsStep c a b) (hc : ¬SetsBounded c) (ha : a.InRange) :
    b.InRange := by
  cases h with
  | keep => exact ha
  | configureChannel | setAuthority | setServiceFirst | systemMask | serviceMask => exact ⟨ha.tables, ha.scrub⟩
  | scrubStart _ ch m =>
    obtain ⟨pacing, segment, ceiling, timeout⟩ := ha.scrub ch
    exact ha.setScrub ch ⟨pacing, segment, ceiling, timeout⟩
  | setPolicy | setPacing | setHoldPolicy | setTimeout => exact absurd (by simp [SetsBounded]) hc

theorem State.held_settings_inRange : State.held.settings.InRange where
  tables := by constructor <;> decide
  scrub ch := by
    rw [show State.held.settings.scrub ch = Scrub.held.settings from congrArg Scrub.settings (Table.get_fill Scrub.held ch)]
    constructor <;> decide

/-! ### SET_POLICY -/

theorem badUnless_eq_none {b : Bool} : badUnless b = none ↔ b = true := by
  unfold badUnless
  split <;> simp [*]

section
variable {w : PolicyWords} {s : State}

/-- R169: in an accepted SET_POLICY the rule of every field carried accepts it. -/
theorem PolicyWords.refuses_of_accepted (h : w.firstRefused s = none) {n : Nat} (hn : n < 14) (hc : w.carries n = true) :
    w.refuses s n = none := by
  have field := List.findSome?_eq_none_iff.mp h n (List.mem_range.mpr hn)
  rwa [Option.map_eq_none_iff, PolicyWords.refusedAt, if_pos hc] at field

/-- R169: in an accepted SET_POLICY the test of every field carried holds. -/
theorem PolicyWords.test_of_accepted (h : w.firstRefused s = none) {n : Nat} (hn : n < 14) {P : Prop} [Decidable P]
    (hr : w.refuses s n = badUnless (decide P)) (hc : w.carries n = true) : P := by
  have test := refuses_of_accepted h hn hc
  rwa [hr, badUnless_eq_none, decide_eq_true_eq] at test

/-- A bounded setting stays within its bounds in an accepted SET_POLICY, whether its field is carried or not. -/
theorem PolicyWords.choose_accepted (h : w.firstRefused s = none) {n : Nat} (hn : n < 14) {P : Nat → Prop} [DecidablePred P]
    {new old : Nat} (hr : w.refuses s n = badUnless (decide (P new))) (ho : P old) : P (w.choose n (some new) old) := by
  unfold PolicyWords.choose
  split
  · exact test_of_accepted h hn hr ‹_›
  · exact ho

/-- R169: the settings after an accepted SET_POLICY. -/
def PolicyWords.tables (w : PolicyWords) (x : TableSettings) : TableSettings where
  cet     := w.cetPolicy x.cet
  uel     := w.uelPolicy x.uel
  batch   := w.choose 8 (some w.batch) x.batch
  reads   := w.choose 5 (some w.reads) x.reads
  persist := w.choose 6 (some w.persist) x.persist
  arbiter := w.choose 7 (arbiterModeOfCode w.arbiter) x.arbiter

theorem PolicyWords.apply_tables (w : PolicyWords) (s : State) :
    (w.apply s).settings = { s.settings with tables := w.tables s.settings.tables } := by
  unfold PolicyWords.apply
  dsimp only
  rw [apply_ite State.settings, State.startLeakTimer_settings, ite_self]
  rfl

/-- R149: the reads total and the persistence stay a pair 1 ≤ P ≤ R ≤ 15, whichever of the two is carried. -/
theorem PolicyWords.verify_inRange (h : w.firstRefused s = none)
    (old : 1 ≤ s.verify.persist ∧ s.verify.persist ≤ s.verify.reads ∧ s.verify.reads ≤ 15) :
    1 ≤ w.choose 6 (some w.persist) s.verify.persist ∧
      w.choose 6 (some w.persist) s.verify.persist ≤ w.choose 5 (some w.reads) s.verify.reads ∧
      w.choose 5 (some w.reads) s.verify.reads ≤ 15 := by
  obtain ⟨low, le, high⟩ := old
  have reads (hc : w.carries 5 = true) :
      (1 ≤ w.reads ∧ w.reads ≤ 15) ∧ (w.carries 6 = true ∨ s.verify.persist ≤ w.reads) := by
    simpa only [PolicyWords.refuses, badUnless_eq_none, Bool.and_eq_true, Bool.or_eq_true, decide_eq_true_eq]
      using refuses_of_accepted h (by decide) hc
  rw [show w.choose 5 (some w.reads) s.verify.reads = w.readsAfter s from rfl]
  have total : w.readsAfter s ≤ 15 := by
    unfold PolicyWords.readsAfter
    split
    · next h5 => exact (reads h5).1.2
    · exact high
  cases h6 : w.carries 6 with
  | true =>
    obtain ⟨one, within⟩ := test_of_accepted h (by decide) rfl h6
    simpa [PolicyWords.choose, h6] using ⟨one, within, total⟩
  | false =>
    have within : s.verify.persist ≤ w.readsAfter s := by
      unfold PolicyWords.readsAfter
      split
      · next h5 => simpa [h6] using (reads h5).2
      · exact le
    simpa [PolicyWords.choose, h6] using ⟨low, within, total⟩

theorem PolicyWords.tables_inRange (h : w.firstRefused s = none) (old : s.settings.tables.InRange) :
    (w.tables s.settings.tables).InRange where
  threshold     := choose_accepted h (by decide) (P := fun v => 1 ≤ v ∧ v ≤ 255) rfl old.threshold
  leakInterval  := choose_accepted h (by decide) (P := (· ≤ 65535)) rfl old.leakInterval
  systemWindow  := choose_accepted h (by decide) (P := (· ≤ 65535)) rfl old.systemWindow
  serviceWindow := choose_accepted h (by decide) (P := (· ≤ 65535)) rfl old.serviceWindow
  batch         := choose_accepted h (by decide) (P := fun v => 1 ≤ v ∧ v ≤ 6) rfl old.batch
  verify        := verify_inRange h old.verify

end

/-! ### The bodies of the four commands -/

/-- A body that keeps every setting at one of its values. -/
def BodyInRange (body : Body) : Prop := ∀ p ps s, s.settings.InRange → (body p ps s).1.settings.InRange

theorem bodySetPolicy_inRange : BodyInRange bodySetPolicy := fun _ ps s law => by
  unfold bodySetPolicy
  dsimp only
  split
  · exact law
  · split
    · exact law
    · next accepted =>
      rw [PolicyWords.apply_tables]
      exact ⟨PolicyWords.tables_inRange accepted law.tables, law.scrub⟩

theorem withScrubChannel_inRange {s : State} {w : Word} {f : Chan → State × Answer} (law : s.settings.InRange)
    (h : ∀ ch, (f ch).1.settings.InRange) : (withScrubChannel s w f).1.settings.InRange := by
  unfold withScrubChannel
  split
  · exact law
  · exact h _

/-- An action that changes one scrub context keeps the law where that context's settings keep it. -/
theorem okScrub_inRange {s : State} {ch : Chan} {f : Scrub → Scrub} (law : s.settings.InRange)
    (h : (f (s.scrub ch)).settings.InRange) : ((s.modScrub ch f).okScrub ch).1.settings.InRange := by
  rw [State.okScrub, State.modScrub_settings]
  exact law.setScrub ch h

theorem bodySetPacing_inRange : BodyInRange bodySetPacing := fun _ _ s law => withScrubChannel_inRange law fun ch => by
  obtain ⟨-, segment, ceiling, timeout⟩ := law.scrub ch
  dsimp only
  split
  · next pacing => exact okScrub_inRange law ⟨pacing, segment, ceiling, timeout⟩
  · exact law

theorem bodySetHoldPolicy_inRange : BodyInRange bodySetHoldPolicy := fun _ _ s law => withScrubChannel_inRange law fun ch => by
  obtain ⟨pacing, -, -, timeout⟩ := law.scrub ch
  dsimp only
  split
  · exact law
  · split
    · next bounds =>
      obtain ⟨low, high, ceiling⟩ := bounds
      refine okScrub_inRange law ?_
      rw [Scrub.setHoldPolicy_settings]
      exact ⟨pacing, ⟨low, high⟩, ceiling, timeout⟩
    · exact law

theorem bodySetTimeout_inRange : BodyInRange bodySetTimeout := fun _ _ s law => withScrubChannel_inRange law fun ch => by
  obtain ⟨pacing, segment, ceiling, -⟩ := law.scrub ch
  dsimp only
  split
  · next timeout => exact okScrub_inRange law ⟨pacing, segment, ceiling, timeout⟩
  · exact law

/-! ### The settings along a step -/

theorem engineTake_inRange {body : Body} (hb : BodyInRange body) {s : State} (law : s.settings.InRange)
    (names : Word → Table Word 6 → Bool) (a : Admission) : (s.engineTake names a body).settings.InRange := by
  unfold State.engineTake
  split
  · exact law
  · next p _ =>
    split
    · unfold State.carryOut
      split
      · have kept := hb p ((s.latch p).mail p).latched (s.latch p) (by rwa [State.latch_settings])
        split <;> simp_all
      · simpa using law
    · exact law

theorem command_inRange {body : Body} {s t : State} {names : Word → Table Word 6 → Bool} {a : Admission}
    (h : s.whileRunning (fun s => s.engineTake names a body) = .next t) (hb : BodyInRange body) (law : s.settings.InRange) :
    t.settings.InRange := by
  cases hr : s.rst with
  | true => rw [State.whileRunning_held hr] at h; cases h; exact law
  | false => rw [State.whileRunning_running hr] at h; cases h; exact engineTake_inRange hb law names a

theorem exec_inRange {c : Instr} {s t : State} (h : exec c s = .next t) (hc : c ≠ .fullReset) (law : s.settings.InRange) :
    t.settings.InRange := by
  by_cases hb : SetsBounded c
  · rcases hb with rfl | rfl | rfl | rfl
    · exact command_inRange h bodySetPolicy_inRange law
    · exact command_inRange h bodySetPacing_inRange law
    · exact command_inRange h bodySetHoldPolicy_inRange law
    · exact command_inRange h bodySetTimeout_inRange law
  · exact (exec_step h hc).inRange hb law

theorem step_settingsLaw {s t : State} (law : s.SettingsLaw) (h : step s = .next t) : t.SettingsLaw := by
  rw [State.settingsLaw_iff] at law ⊢
  unfold step at h
  split at h
  · cases h; exact law
  · next c rest _ =>
    by_cases hc : c = .fullReset
    · subst hc
      cases h
      exact State.held_settings_inRange
    · exact exec_inRange (s := s.setPending rest) h hc law

/-! ### Every law -/

/-- Settles O59: the laws of the tables, of the log and of the engine are kept along what a command may do to the holdings, and the
settings by the tests of the commands that carry them. -/
theorem tableAndEngineLawsKept : Obligations.TableAndEngineLawsKept := by
  unfold Obligations.TableAndEngineLawsKept
  refine ⟨fun s t law h => ?_, fun s t law h => ?_, fun s t uel engine h => ⟨?_, step_engineLaw engine h⟩,
    fun s t => step_settingsLaw⟩
  · exact State.cetLaw_iff.mpr (Holdings.CetLaw.keep.step_keeps State.held_cetLaw (State.cetLaw_iff.mp law) h)
  · exact State.listLaw_iff.mpr (Holdings.ListLaw.keep.step_keeps State.held_listLaw (State.listLaw_iff.mp law) h)
  · exact State.uelLaw_iff.mpr (Holdings.UelLaw.keep.step_keeps State.held_uelLaw (State.uelLaw_iff.mp uel) h)

end Sys2Proof.Machine

/-! The commands on the retirement list and their refusals (R53 to R57, R59). -/

namespace Sys2Proof.Machine

/-! ### The index parameter of a command on the list -/

section
variable {s : State} {w : Word} {i : RetIdx} {a : RetEntry} {needs : RetState} {f : RetIdx → State × Answer}
  {g : RetIdx → RetEntry → State × Answer}

theorem withRetIndex_eq (h : field w 15 0 = i.val) : withRetIndex s w f = f i := by
  simp only [withRetIndex, finOf_some (show indexParam w = i.val from h)]

theorem withRetIndex_beyond (h : 32 ≤ field w 15 0) : withRetIndex s w f = (s, refusal .badParam) := by
  simp only [withRetIndex, finOf_none (show 32 ≤ indexParam w from h)]

theorem withRetEntry_eq (h : field w 15 0 = i.val) (ha : s.retired i = some a) (hs : a.state = needs) :
    withRetEntry s w needs g = g i a := by
  have entry : s.retire.entries.get i = some a := ha
  simp only [withRetEntry, withRetIndex_eq h, entry, if_pos hs]

theorem withRetEntry_free (h : field w 15 0 = i.val) (ha : s.retired i = none) :
    withRetEntry s w needs g = (s, refusal .notFound) := by
  have entry : s.retire.entries.get i = none := ha
  simp only [withRetEntry, withRetIndex_eq h, entry]

theorem withRetEntry_conflict (h : field w 15 0 = i.val) (ha : s.retired i = some a) (hs : a.state ≠ needs) :
    withRetEntry s w needs g = (s, refusal .stateConflict) := by
  have entry : s.retire.entries.get i = some a := ha
  simp only [withRetEntry, withRetIndex_eq h, entry, if_neg hs]

theorem withRetEntry_beyond (h : 32 ≤ field w 15 0) : withRetEntry s w needs g = (s, refusal .badParam) :=
  withRetIndex_beyond h

end

/-! ### What a take leaves of the list -/

theorem State.latch_retired (s : State) (p : Port) (i : RetIdx) : (s.latch p).retired i = s.retired i := by cases p <;> rfl

/-- R53: what a command on a valid entry in the state that it needs does: its effect, and its refusals in their order. -/
structure RunsOnListed (s : State) (p : Port) (needs : RetState) (effect : RetIdx → RetEntry → State × Answer)
    (run : Host.Outcome State Fault Refusal) : Prop where
  valid    : ∀ i a, field (s.param p 0) 15 0 = i.val → s.retired i = some a → a.state = needs →
    run = .next (State.answered p (effect i a))
  free     : ∀ i : RetIdx, field (s.param p 0) 15 0 = i.val → s.retired i = none → run = .next (s.withRefusal p .notFound)
  conflict : ∀ (i : RetIdx) a, field (s.param p 0) 15 0 = i.val → s.retired i = some a → a.state ≠ needs →
    run = .next (s.withRefusal p .stateConflict)
  beyond   : 32 ≤ field (s.param p 0) 15 0 → run = .next (s.withRefusal p .badParam)

theorem State.Takes.run_listed {s : State} {p : Port} {n : Nat} (h : s.Takes p n) (ha : s.engine.authority.admits p = true)
    {needs : RetState} {g : State → RetIdx → RetEntry → State × Answer} :
    RunsOnListed s p needs (g (s.latch p))
      (s.whileRunning (fun s => s.engineTake (codeIs n) .authority fun _ ps s => withRetEntry s (ps.get 0) needs (g s))) := by
  rw [h.run_authority ha]
  refine ⟨fun i a hi he hs => ?_, fun i hi he => ?_, fun i a hi he hs => ?_, fun hb => ?_⟩
  · rw [withRetEntry_eq (w := (s.mail p).params.get 0) hi ((s.latch_retired p i).trans he) hs]
  · rw [withRetEntry_free (w := (s.mail p).params.get 0) hi ((s.latch_retired p i).trans he)]
    exact congrArg _ (s.answered_latch p _ _)
  · rw [withRetEntry_conflict (w := (s.mail p).params.get 0) hi ((s.latch_retired p i).trans he) hs]
    exact congrArg _ (s.answered_latch p _ _)
  · rw [withRetEntry_beyond (w := (s.mail p).params.get 0) hb]
    exact congrArg _ (s.answered_latch p _ _)

/-! ### REJECT_RETIRE and REMOVE_RETIRE -/

/-- R32, R56, R57: a retirement entry becomes free and the links that name it are cleared. -/
def State.delisted (s : State) (i : RetIdx) : State := (s.setRetEntry i none).unlinkAll i

theorem State.delisted_tables (s : State) (i : RetIdx) : TablesOnly s (s.delisted i) :=
  (s.setRetEntry_tables i none).trans (State.unlinkAll_tables _ i)

theorem State.latch_delisted (s : State) (p : Port) (i : RetIdx) :
    (s.latch p).delisted i = (s.delisted i).asTaken (s.latch p) := by cases p <;> rfl

theorem State.answered_delisted (s : State) (p : Port) (i : RetIdx) (code : ResultCode) (result : Pages) :
    State.answered p ((s.latch p).delisted i, .done code result) = (s.delisted i).withDone p code result := by
  rw [s.latch_delisted]
  exact State.answered_tables p (s.delisted_tables i) code result

theorem RetEntry.cetEvidence_eq_some {a : RetEntry} {c : CetIdx} (h : a.evidence = some (.cet c)) : a.cetEvidence = some c := by
  simp only [RetEntry.cetEvidence, h]

theorem RetEntry.cetEvidence_eq_none {a : RetEntry} (h : ∀ c, a.evidence ≠ some (.cet c)) : a.cetEvidence = none := by
  unfold RetEntry.cetEvidence
  split
  · exact absurd ‹_› (h _)
  · rfl
  · rfl

section
variable {s : State} {p : Port} {i : RetIdx} {a : RetEntry}

/-- R56: REJECT_RETIRE of a proposal whose evidence is a valid CET entry. -/
theorem State.Takes.rejectRetire_cet (h : s.Takes p 36) (ha : s.engine.authority.admits p = true)
    (hi : field (s.param p 0) 15 0 = i.val) (he : s.retired i = some a) (hs : a.state = .proposed) {c : CetIdx}
    (hv : a.evidence = some (.cet c)) (hc : s.entry c ≠ none) :
    exec .rejectRetire s = .next (((s.freeEntry c (some .cleared)).delisted i).withOk p [1]) := by
  refine ((h.run_listed ha).valid i a hi he hs).trans (congrArg _ ?_)
  have valid : (s.entry c).isSome = true := Option.isSome_iff_ne_none.mpr hc
  simp only [RetEntry.cetEvidence_eq_some hv, s.latch_entry, s.latch_freeEntry, valid]
  exact State.answered_tables p ((s.freeEntry_tables c _).trans (State.delisted_tables _ i)) _ _

/-- R56: REJECT_RETIRE of a proposal without CET evidence. -/
theorem State.Takes.rejectRetire_other (h : s.Takes p 36) (ha : s.engine.authority.admits p = true)
    (hi : field (s.param p 0) 15 0 = i.val) (he : s.retired i = some a) (hs : a.state = .proposed)
    (hv : ∀ c, a.evidence ≠ some (.cet c)) : exec .rejectRetire s = .next ((s.delisted i).withOk p [0]) := by
  refine ((h.run_listed ha).valid i a hi he hs).trans (congrArg _ ?_)
  simp only [RetEntry.cetEvidence_eq_none hv]
  exact s.answered_delisted p i _ _

/-- R57: REMOVE_RETIRE of a confirmed range. -/
theorem State.Takes.removeRetire (h : s.Takes p 37) (ha : s.engine.authority.admits p = true)
    (hi : field (s.param p 0) 15 0 = i.val) (he : s.retired i = some a) (hs : a.state = .confirmed) :
    exec .removeRetire s = .next ((s.delisted i).withOk p [num a.suppressed]) :=
  ((h.run_listed ha).valid i a hi he hs).trans (congrArg _ (s.answered_delisted p i _ _))

end

/-- Settles O48: the refusals by the command's tests, the removals by the writes to the two tables. -/
theorem rejectAndRemove : Obligations.RejectAndRemove := by
  unfold Obligations.RejectAndRemove
  intro p i s hi ha unlinked gone
  refine ⟨fun h => ?_, fun h => ?_⟩
  · have runs : RunsOnListed s p .proposed _ (exec .rejectRetire s) := h.run_listed ha
    exact ⟨runs.free i hi, fun a he hs => runs.conflict i a hi he (by simp [hs]),
      fun a c he hs hv hc => h.rejectRetire_cet ha hi he hs hv hc, fun a he hs hv => h.rejectRetire_other ha hi he hs hv⟩
  · have runs : RunsOnListed s p .confirmed _ (exec .removeRetire s) := h.run_listed ha
    exact ⟨runs.free i hi, fun a he hs => runs.conflict i a hi he (by simp [hs]), fun a he hs => h.removeRetire ha hi he hs⟩

/-! ### ADD_RETIRE and CONFIRM_RETIRE -/

/-- R59: a retirement entry is written and its purge begins. -/
def State.purging (s : State) (i : RetIdx) (a : RetEntry) : State := (s.setRetEntry i (some a)).beginPurge i

/-- R59: a command that begins a purge stays RUNNING. -/
theorem State.answered_purging (s : State) (p : Port) (i : RetIdx) (a : RetEntry) :
    State.answered p ((s.latch p).purging i a, .running) = (s.purging i a).withTaken p := by
  cases p <;> rfl

/-- R188: parameter words of which a range field is beyond its field range. -/
theorem rangeParam_none {x y z : Word} (h : 8 ≤ field x 3 0 ∨ 4 ≤ field x 7 4 ∨ 32 ≤ field x 15 8 ∨
    262144 ≤ field y 19 0 ∨ 262144 ≤ field z 19 0) : rangeParam x y z = none := by
  cases hr : rangeParam x y z with
  | none => rfl
  | some r =>
    simp only [rangeParam, finOf, Option.bind_eq_bind, Option.bind_eq_some_iff, Option.dite_none_right_eq_some] at hr
    obtain ⟨_, ⟨h1, -⟩, _, ⟨h2, -⟩, _, ⟨h3, -⟩, _, ⟨h4, -⟩, _, ⟨h5, -⟩, -⟩ := hr
    omega

theorem State.latch_overlapping (s : State) (p : Port) (r : Range) : (s.latch p).overlapping r = s.overlapping r := by
  cases p <;> rfl

theorem State.latch_freeRetire (s : State) (p : Port) : (s.latch p).freeRetire = s.freeRetire := by cases p <;> rfl

theorem State.latch_now (s : State) (p : Port) : (s.latch p).now = s.now := by cases p <;> rfl

section
variable {s : State} {p : Port} {r : Range}

/-- R53, R54: ADD_RETIRE of parameters that name no range. -/
theorem State.Takes.addRetire_beyond (h : s.Takes p 34) (ha : s.engine.authority.admits p = true)
    (hr : rangeParam (s.param p 0) (s.param p 1) (s.param p 2) = none) :
    exec .addRetire s = .next (s.withRefusal p .badParam) := by
  refine (h.run_authority ha bodyAddRetire).trans (congrArg _ ?_)
  rw [State.param, State.param, State.param] at hr
  simp only [bodyAddRetire, hr]
  exact s.answered_latch p _ _

/-- R53, R54: ADD_RETIRE of a range, by its tests in order. -/
theorem State.Takes.addRetire (h : s.Takes p 34) (ha : s.engine.authority.admits p = true)
    (hr : RangeWords (s.param p 0) (s.param p 1) (s.param p 2) r) : exec .addRetire s =
      .next (if r.wellFormed (s.geometry r.channel) then
        match s.overlapping r with
        | some i => s.withDone p .overlap (pages [num i.val] [] [])
        | none =>
          match s.freeRetire with
          | none => s.withRefusal p .full
          | some i => (s.purging i (addedEntry r s.now)).withTaken p
      else s.withRefusal p .badParam) := by
  refine (h.run_authority ha bodyAddRetire).trans (congrArg _ ?_)
  have param : rangeParam ((s.mail p).params.get 0) ((s.mail p).params.get 1) ((s.mail p).params.get 2) = some r := hr.param
  simp only [bodyAddRetire, param, s.latch_geometry, s.latch_overlapping, s.latch_freeRetire, s.latch_now]
  split
  · cases s.overlapping r with
    | some i => exact s.answered_latch p _ _
    | none =>
      cases s.freeRetire with
      | none => exact s.answered_latch p _ _
      | some i => exact s.answered_purging p i _
  · exact s.answered_latch p _ _

/-- R55: CONFIRM_RETIRE of a proposal. -/
theorem State.Takes.confirmRetire (h : s.Takes p 35) (ha : s.engine.authority.admits p = true) {i : RetIdx} {a : RetEntry}
    (hi : field (s.param p 0) 15 0 = i.val) (he : s.retired i = some a) (hs : a.state = .proposed) :
    exec .confirmRetire s =
      .next ((s.purging i { a with state := .confirmed, confirmed := some s.now }).withTaken p) := by
  refine ((h.run_listed ha).valid i a hi he hs).trans (congrArg _ ?_)
  rw [s.latch_now]
  exact s.answered_purging p i _

end

/-- Settles O47: ADD_RETIRE by its tests in order and the two searches of the list, CONFIRM_RETIRE by the entry that it names. -/
theorem addAndConfirmBeginPurge : Obligations.AddAndConfirmBeginPurge := by
  unfold Obligations.AddAndConfirmBeginPurge
  refine ⟨fun p s h ha => ⟨fun hb => h.addRetire_beyond ha (rangeParam_none hb), fun r hr => ?_⟩, fun p s h ha => ?_⟩
  · have add := h.addRetire ha hr
    refine ⟨fun hw => ?_, fun hw => ⟨fun i a he ho hl => ?_, fun hn => ⟨fun hf => ?_, fun i he hl => ?_⟩⟩⟩
    · rw [add, hw, if_neg Bool.false_ne_true]
    · rw [add, if_pos hw, State.overlapping_eq_some he ho hl]
    · rw [add, if_pos hw, State.overlapping_eq_none.mpr hn, State.freeRetire_eq_none hf]
    · rw [add, if_pos hw, State.overlapping_eq_none.mpr hn, State.freeRetire_eq_some he hl]
      rfl
  · have runs : RunsOnListed s p .proposed _ (exec .confirmRetire s) := h.run_listed ha
    exact ⟨runs.beyond, fun i hi => ⟨runs.free i hi, fun a he hs => runs.conflict i a hi he (by simp [hs]),
      fun a he hs => h.confirmRetire ha hi he hs⟩⟩

end Sys2Proof.Machine

/-! The visits of a purge and its end (R28, R60, R61). -/

namespace Sys2Proof.Machine

/-! ### The completion of a command that has been RUNNING -/

section
variable (s : State) (p : Port) (code : ResultCode) (result : Pages)

theorem State.complete_mail :
    (s.complete p code result).mail p = { s.mail p with state := .done, code := code, result := result } := by
  cases p <;> rfl

theorem State.complete_mail_other : (s.complete p code result).mail (Port.other p) = s.mail (Port.other p) := by
  cases p <;> rfl

theorem State.complete_flagged : (s.complete p code result).flagged (doneFlag p) = true := by
  simp [State.complete, State.flagged_setFlag]

end

theorem State.setEngine_mail (s : State) (x : Engine) (p : Port) : (s.setEngine x).mail p = s.mail p := by cases p <;> rfl

/-! ### One visit -/

theorem TablesOnly.mail {s t : State} (h : TablesOnly s t) (p : Port) : t.mail p = s.mail p := by
  cases p
  · exact h.sysMail
  · exact h.svcMail

theorem State.visit_tables (s : State) (g : Purge) (i : CetIdx) : TablesOnly s (s.visit g i).1 := by
  unfold State.visit
  split
  · exact s.freeEntry_tables i (some .retired)
  · exact .refl s

/-- R60: a valid entry is hit exactly when its key lies inside the range that the purge serves. -/
theorem State.purgeHits_eq {s : State} {k : RetIdx} {a : RetEntry} (ha : s.retired k = some a) (i : CetIdx) :
    s.purgeHits k i = (s.entry i).any (fun e => e.key.inside a.range (s.geometry e.key.channel)) := by
  have range : s.retire.entries.get k = some a := ha
  unfold State.purgeHits
  rw [range]
  cases s.entry i <;> rfl

theorem State.runningPort_eq {s : State} {p : Port} (hp : (s.mail p).state = .running)
    (ho : (s.mail (Port.other p)).state ≠ .running) : s.runningPort = some p := by
  cases p
  · exact if_pos hp
  · exact (if_neg ho).trans (if_pos hp)

section
variable {s : State} {g : Purge} {i : CetIdx}

/-- R60: a visit below index 127 moves the purge to the next index. -/
theorem State.purgeStep_below (hg : g.next = i.val) (hi : i.val < 127) : s.purgeStep g = { (s.visit g i).1 with
    engine := { s.engine with purge := some ⟨g.serves, g.next + 1, (s.visit g i).2⟩ } } := by
  have more : g.next + 1 < 128 := by omega
  rw [← (s.visit_tables g i).engine]
  simp only [State.purgeStep, finOf_some hg, if_pos more]
  rfl

/-- R61: the visit of index 127 ends the purge. -/
theorem State.purgeStep_last (hg : g.next = i.val) (hi : i.val = 127) :
    s.purgeStep g = (s.visit g i).1.endPurge g (s.visit g i).2 := by
  have last : ¬g.next + 1 < 128 := by omega
  simp only [State.purgeStep, finOf_some hg, if_neg last]

/-- R61: the end of a purge completes the RUNNING command. -/
theorem State.endPurge_eq {t : State} {p : Port} (h : TablesOnly s t) (hp : (s.mail p).state = .running)
    (ho : (s.mail (Port.other p)).state ≠ .running) (n : Nat) : t.endPurge g n =
      (t.setEngine { s.engine with purge := none }).complete p .ok (pages [num g.serves.val, num n] [] []) := by
  have port : t.runningPort = some p := State.runningPort_eq (by rwa [h.mail]) (by rwa [h.mail])
  simp only [State.endPurge, port, h.engine]

end

theorem execPurgeVisit_eq {s : State} {g : Purge} (hr : s.rst = false) (hg : s.engine.purge = some g) :
    exec .purgeVisit s = .next (s.purgeStep g) := by
  simp only [exec, execPurgeVisit, State.whileRunning_running hr, hg]

/-- Settles O49: below index 127 by the move to the next index, at 127 by the completion of the command. -/
theorem purgeVisitsNextIndex : Obligations.PurgeVisitsNextIndex := by
  unfold Obligations.PurgeVisitsNextIndex
  intro g i a s hr hg hn ha hit visited purged
  have visit : s.visit g i = (visited, purged) := by
    simp only [State.visit, State.purgeHits_eq ha, visited, purged, hit]
    split <;> rfl
  have tables : TablesOnly s visited := by simpa only [visit] using s.visit_tables g i
  refine ⟨fun hi => ?_, fun hi p hp ho => ⟨s.purgeStep g, execPurgeVisit_eq hr hg, ?_⟩⟩
  · rw [execPurgeVisit_eq hr hg, State.purgeStep_below hn hi, visit]
  · rw [State.purgeStep_last hn hi, visit, State.endPurge_eq tables hp ho]
    refine ⟨?_, ?_, ?_, ?_, ?_, ?_, State.complete_flagged _ p _ _, ?_, ?_, ?_, ?_⟩
    case refine_5 => rw [State.complete_mail, State.setEngine_mail, tables.mail]
    case refine_6 => rw [State.complete_mail_other, State.setEngine_mail, tables.mail]
    all_goals simp [State.complete, tables.links, tables.scrubs, tables.queues, tables.uel]

end Sys2Proof.Machine

/-! The reads of the list and of the log, and the words that they return (R42, R53, R58, R66, R72, R81, R82, R188). -/

namespace Sys2Proof.Machine

/-! ### READ_RETIRE and FIND_RETIRE -/

section
variable {s : State} {l : Loc}

theorem State.latch_containing (s : State) (p : Port) (l : Loc) : (s.latch p).containing l = s.containing l := by
  cases p <;> rfl

theorem State.latch_retire (s : State) (p : Port) : (s.latch p).retire = s.retire := by cases p <;> rfl

theorem State.latch_uel (s : State) (p : Port) : (s.latch p).uel = s.uel := by cases p <;> rfl

/-- R58: the lowest-index valid entry that contains a location. -/
theorem State.containing_eq_some {i : RetIdx} {a : RetEntry} (ha : s.retired i = some a) (hi : l.inside a.range = true)
    (hl : ∀ j b, j < i → s.retired j = some b → l.inside b.range = false) : s.containing l = some i := by
  refine Table.find_eq_some_iff.mpr ⟨by simp [show s.retire.entries.get i = some a from ha, hi], fun j hj => ?_⟩
  cases hb : s.retire.entries.get j with
  | none => rfl
  | some b => simp [hl j b hj hb]

theorem State.containing_eq_none :
    s.containing l = none ↔ ∀ i a, s.retired i = some a → l.inside a.range = false := by
  rw [State.containing, Table.find_eq_none]
  refine forall_congr' fun i => ?_
  rw [show s.retire.entries.get i = s.retired i from rfl]
  cases s.retired i <;> simp

variable {p : Port}

theorem State.Takes.readRetire (h : s.Takes p 32) {i : RetIdx} (hi : field (s.param p 0) 15 0 = i.val) :
    exec .readRetire s = .next
      (s.withOk p (retirePage (s.retired i) (s.retire.countIn .proposed) (s.retire.countIn .confirmed))) := by
  refine (h.run_any bodyReadRetire).trans (congrArg _ ?_)
  rw [bodyReadRetire, withRetIndex_eq (w := (s.mail p).params.get 0) hi, s.latch_retire]
  exact s.answered_latch p _ _

theorem State.Takes.readRetire_beyond (h : s.Takes p 32) (hb : 32 ≤ field (s.param p 0) 15 0) :
    exec .readRetire s = .next (s.withRefusal p .badParam) := by
  refine (h.run_any bodyReadRetire).trans (congrArg _ ?_)
  rw [bodyReadRetire, withRetIndex_beyond (w := (s.mail p).params.get 0) hb]
  exact s.answered_latch p _ _

/-- R53, R58: FIND_RETIRE of a location, by its tests in order. -/
theorem State.Takes.findRetire (h : s.Takes p 33) (hl : LocWords (s.param p 0) (s.param p 1) l) : exec .findRetire s =
    .next (if l.within (s.geometry l.channel) then
      match s.containing l with
      | none => s.withRefusal p .notFound
      | some i => s.withOk p [num i.val, num (((s.retired i).map (fun e => e.state.code)).getD 0)]
    else s.withRefusal p .badParam) := by
  refine (h.run_any bodyFindRetire).trans (congrArg _ ?_)
  have param : locParam ((s.mail p).params.get 0) ((s.mail p).params.get 1) = some l := hl.param
  simp only [bodyFindRetire, param, s.latch_geometry, s.latch_containing, s.latch_retire]
  split
  · cases s.containing l with
    | none => exact s.answered_latch p _ _
    | some i => exact s.answered_latch p _ _
  · exact s.answered_latch p _ _

theorem State.Takes.findRetire_beyond (h : s.Takes p 33) (hb : BeyondRange (s.param p 0) (s.param p 1)) :
    exec .findRetire s = .next (s.withRefusal p .badParam) := by
  refine (h.run_any bodyFindRetire).trans (congrArg _ ?_)
  have param : locParam ((s.mail p).params.get 0) ((s.mail p).params.get 1) = none := hb.param
  simp only [bodyFindRetire, param]
  exact s.answered_latch p _ _

end

theorem RetState.num_code (a : RetState) : num a.code = if a = .proposed then 0 else 1 := by cases a <;> rfl

/-- R58: FIND_RETIRE of a location that the list contains. -/
theorem State.Takes.findRetire_found {s : State} {p : Port} (h : s.Takes p 33) {l : Loc}
    (hl : LocWords (s.param p 0) (s.param p 1) l) (hw : l.within (s.geometry l.channel) = true) {i : RetIdx} {a : RetEntry}
    (ha : s.retired i = some a) (hi : s.containing l = some i) :
    exec .findRetire s = .next (s.withOk p [num i.val, if a.state = .proposed then 0 else 1]) := by
  rw [h.findRetire hl, if_pos hw, hi, ← RetState.num_code]
  simp only [ha, Option.map_some, Option.getD_some]

/-! ### READ_UE and READ_UE_OVERFLOW -/

section
variable {s : State} {p : Port}

/-- R81: the oldest record with an id. -/
theorem State.findUe_eq_some {id : Nat} {before after : List UeRecord} {r : UeRecord}
    (hr : s.uel.records = before ++ r :: after) (hid : r.id.toNat = id) (hb : ∀ x ∈ before, x.id.toNat ≠ id) :
    s.findUe id = some before.length := by
  rw [State.findUe, hr, List.findIdx?_append, List.findIdx?_eq_none_iff.mpr fun x hx => by simpa using hb x hx]
  simp [List.findIdx?_cons, hid]

theorem State.findUe_eq_none {id : Nat} (h : ∀ r ∈ s.uel.records, r.id.toNat ≠ id) : s.findUe id = none :=
  List.findIdx?_eq_none_iff.mpr fun r hr => by simpa using h r hr

theorem State.latch_selectUe (s : State) (p : Port) (selector value : Nat) :
    (s.latch p).selectUe selector value = s.selectUe selector value := by cases p <;> rfl

/-- R81: READ_UE of a position that the selection names. -/
theorem State.Takes.readUe (h : s.Takes p 48) {i : Nat} {r : UeRecord}
    (hs : s.selectUe (s.param p 0).toNat (field (s.param p 1) 15 0) = .ok i) (hr : s.uel.records[i]? = some r) :
    exec .readUe s = .next (s.withOk p (uePage r i s.uel.records.length)) := by
  refine (h.run_any bodyReadUe).trans (congrArg _ ?_)
  rw [State.param, State.param] at hs
  simp only [bodyReadUe, indexParam, State.ueAt, s.latch_selectUe, s.latch_uel, hs, hr]
  exact s.answered_latch p _ _

theorem State.Takes.readUe_refused (h : s.Takes p 48) {code : ResultCode}
    (hs : s.selectUe (s.param p 0).toNat (field (s.param p 1) 15 0) = .error code) :
    exec .readUe s = .next (s.withRefusal p code) := by
  refine (h.run_any bodyReadUe).trans (congrArg _ ?_)
  rw [State.param, State.param] at hs
  simp only [bodyReadUe, indexParam, s.latch_selectUe, hs]
  exact s.answered_latch p _ _

theorem State.selectUe_unnamed {selector : Nat} (h : 2 ≤ selector) (value : Nat) :
    s.selectUe selector value = .error .badParam := by
  match selector, h with
  | _ + 2, _ => rfl

/-- R81: READ_UE by position. -/
theorem State.Takes.readUe_position (h : s.Takes p 48) (h0 : s.param p 0 = 0) :
    (15 < field (s.param p 1) 15 0 → exec .readUe s = .next (s.withRefusal p .badParam)) ∧
    (field (s.param p 1) 15 0 ≤ 15 → s.uel.records.length ≤ field (s.param p 1) 15 0 →
      exec .readUe s = .next (s.withRefusal p .notFound)) ∧
    (∀ r, field (s.param p 1) 15 0 ≤ 15 → s.uel.records[field (s.param p 1) 15 0]? = some r →
      exec .readUe s = .next (s.withOk p (uePage r (field (s.param p 1) 15 0) s.uel.records.length))) := by
  refine ⟨fun hv => h.readUe_refused ?_, fun hv hl => h.readUe_refused ?_, fun r hv hr => h.readUe ?_ hr⟩
  · rw [h0]; exact if_pos hv
  · rw [h0]; exact (if_neg (not_lt.mpr hv)).trans (if_neg (not_lt.mpr hl))
  · rw [h0]; exact (if_neg (not_lt.mpr hv)).trans (if_pos (List.getElem?_eq_some_iff.mp hr).1)

/-- R81: READ_UE by id. -/
theorem State.Takes.readUe_id (h : s.Takes p 48) (h1 : s.param p 0 = 1) :
    (255 < field (s.param p 1) 15 0 → exec .readUe s = .next (s.withRefusal p .badParam)) ∧
    (field (s.param p 1) 15 0 ≤ 255 → (∀ r ∈ s.uel.records, r.id.toNat ≠ field (s.param p 1) 15 0) →
      exec .readUe s = .next (s.withRefusal p .notFound)) ∧
    (∀ before r after, s.uel.records = before ++ r :: after → r.id.toNat = field (s.param p 1) 15 0 →
      (∀ x ∈ before, x.id.toNat ≠ field (s.param p 1) 15 0) →
      exec .readUe s = .next (s.withOk p (uePage r before.length s.uel.records.length))) := by
  refine ⟨fun hv => h.readUe_refused ?_, fun hv hn => h.readUe_refused ?_, fun before r after hr hid hb =>
    h.readUe ?_ (by rw [hr]; simp)⟩
  · rw [h1]; exact if_pos hv
  · rw [h1]; exact (if_neg (not_lt.mpr hv)).trans (by rw [State.findUe_eq_none hn])
  · have hv : ¬255 < field (s.param p 1) 15 0 := by have := r.id.isLt; omega
    rw [h1]; exact (if_neg hv).trans (by rw [State.findUe_eq_some hr hid hb])

theorem State.Takes.readUe_unnamed (h : s.Takes p 48) (h2 : 2 ≤ (s.param p 0).toNat) :
    exec .readUe s = .next (s.withRefusal p .badParam) :=
  h.readUe_refused (State.selectUe_unnamed h2 _)

/-- R82: READ_UE_OVERFLOW with clear no. -/
theorem State.Takes.readUeOverflow (h : s.Takes p 50) (h0 : s.param p 0 = 0) :
    exec .readUeOverflow s = .next (s.withOk p (overflowPage s.uel.overflow s.uel.firstLost)) := by
  refine (h.run_any bodyReadUeOverflow).trans (congrArg _ ?_)
  rw [State.param] at h0
  have clear : boolOfCode ((s.mail p).params.get 0).toNat = some false := by rw [h0]; rfl
  simp only [bodyReadUeOverflow, clear, Bool.false_eq_true, if_false, s.latch_uel]
  exact s.answered_latch p _ _

/-- R82: READ_UE_OVERFLOW with clear yes. -/
theorem State.Takes.readUeOverflow_clear (h : s.Takes p 50) (h1 : s.param p 0 = 1) : exec .readUeOverflow s = .next
    (({ s with uel := { s.uel with overflow := 0, firstLost := none } } : State).withOk p
      (overflowPage s.uel.overflow s.uel.firstLost)) := by
  refine (h.run_any bodyReadUeOverflow).trans (congrArg _ ?_)
  rw [State.param] at h1
  have clear : boolOfCode ((s.mail p).params.get 0).toNat = some true := by rw [h1]; rfl
  simp only [bodyReadUeOverflow, clear, if_true, s.latch_uel]
  cases p <;> rfl

theorem State.Takes.readUeOverflow_unnamed (h : s.Takes p 50) (h2 : 2 ≤ (s.param p 0).toNat) :
    exec .readUeOverflow s = .next (s.withRefusal p .badParam) := by
  refine (h.run_any bodyReadUeOverflow).trans (congrArg _ ?_)
  simp only [bodyReadUeOverflow, boolOfCode_none (show 2 ≤ ((s.mail p).params.get 0).toNat from h2)]
  exact s.answered_latch p _ _

end

/-! ### The words of READ_RETIRE -/

/-- A bit that no field meets is 0. -/
theorem Laid.unnamed_bit {w : Word} {fs : List (Nat × Nat × Nat)} (h : Laid w fs) {n : Nat} (ha : ∀ f ∈ fs, Apart n n f) :
    w.getLsbD n = false := by
  rw [h.packed, bit_pack_unnamed ha]

theorem evidenceCode_kind_lt (e : Option Evidence) : (evidenceCode e).1 < 4 := by
  rcases e with _ | _ | _ <;> simp [evidenceCode]

/-- R42, R188: word 0 of a valid entry of the list. -/
theorem retirePage_word0 (a : RetEntry) (proposed confirmed : Nat) :
    let w := (retirePage (some a) proposed confirmed).getD 0 0
    w.getLsbD 0 = true ∧ w.getLsbD 1 = decide (a.state = .confirmed) ∧ w.getLsbD 2 = decide (a.origin = .host) ∧
    w.getLsbD 3 = a.confirmed.isSome ∧ (a.evidence = none → field w 5 4 = 0) ∧
    (∀ i, a.evidence = some (.cet i) → field w 5 4 = 1 ∧ field w 15 8 = i.val) ∧
    (∀ id, a.evidence = some (.ue id) → field w 5 4 = 2 ∧ field w 15 8 = id.toNat) ∧ field w 7 6 = 0 ∧
    field w 31 16 = a.suppressed % 2 ^ 16 := by
  intro w
  have laid : Laid w _ := ⟨rfl, by simp [flagBit]⟩
  have kind : field w 5 4 = (evidenceCode a.evidence).1 := laid.field 4 rfl (by decide) (evidenceCode_kind_lt _)
  have value : field w 15 8 = (evidenceCode a.evidence).2 % 2 ^ 8 := laid.field_mod 5 rfl (by decide)
  refine ⟨laid.bit 0 rfl (by decide), laid.bit 1 rfl (by decide), laid.bit 2 rfl (by decide), laid.bit 3 rfl (by decide),
    fun h => ?_, fun i h => ?_, fun id h => ?_, laid.unnamed (by simp [flagBit, Apart]), laid.field_mod 6 rfl (by decide)⟩
  · rw [kind, h]; rfl
  · rw [kind, value, h]; exact ⟨rfl, Nat.mod_eq_of_lt (show i.val < 2 ^ 8 by omega)⟩
  · rw [kind, value, h]; exact ⟨rfl, Nat.mod_eq_of_lt id.isLt⟩

/-- R42, R188: word 1 of a valid entry of the list. -/
theorem retirePage_word1 (a : RetEntry) (proposed confirmed : Nat) :
    let w := (retirePage (some a) proposed confirmed).getD 1 0
    field w 3 0 = a.range.channel.val ∧ field w 7 4 = a.range.rank.val ∧ field w 15 8 = a.range.bank.val ∧
    field w 21 16 = proposed % 2 ^ 6 ∧ field w 29 24 = confirmed % 2 ^ 6 ∧ field w 23 22 = 0 ∧ field w 31 30 = 0 := by
  intro w
  have laid : Laid w _ := ⟨rfl, by simp⟩
  exact ⟨laid.field 0 rfl (by decide) (by have := a.range.channel.isLt; omega),
    laid.field 1 rfl (by decide) (by have := a.range.rank.isLt; omega),
    laid.field 2 rfl (by decide) (by have := a.range.bank.isLt; omega), laid.field_mod 3 rfl (by decide),
    laid.field_mod 4 rfl (by decide), laid.unnamed (by simp [Apart]), laid.unnamed (by simp [Apart])⟩

/-- R42, R188: word 1 of a free index. -/
theorem retirePage_free_word1 (proposed confirmed : Nat) :
    let w := (retirePage none proposed confirmed).getD 1 0
    field w 15 0 = 0 ∧ field w 21 16 = proposed % 2 ^ 6 ∧ field w 29 24 = confirmed % 2 ^ 6 ∧ field w 23 22 = 0 ∧
    field w 31 30 = 0 := by
  intro w
  have laid : Laid w _ := ⟨rfl, by simp⟩
  exact ⟨laid.unnamed (by simp [Apart]), laid.field_mod 0 rfl (by decide), laid.field_mod 1 rfl (by decide),
    laid.unnamed (by simp [Apart]), laid.unnamed (by simp [Apart])⟩

/-! ### The words of READ_UE and READ_UE_OVERFLOW -/

theorem UeClass.code_lt (c : UeClass) : c.code < 4 := by cases c <;> decide

theorem Origin.code_lt (o : Origin) : o.code < 8 := by cases o <;> decide

theorem AckState.code_lt (a : AckState) : a.code < 4 := by cases a <;> decide

/-- R188: the two words of a location. -/
theorem locWords_fields (l : Loc) :
    let w := fun k => (locWords l).getD k 0
    field (w 0) 3 0 = l.channel.val ∧ field (w 0) 7 4 = l.rank.val ∧ field (w 0) 15 8 = l.bank.val ∧
    field (w 0) 27 16 = l.column.val ∧ field (w 0) 31 28 = 0 ∧ (w 1).toNat = l.row.val := by
  intro w
  have laid : Laid (w 0) _ := ⟨rfl, by simp⟩
  have row := l.row.isLt
  refine ⟨laid.field 0 rfl (by decide) (by have := l.channel.isLt; omega),
    laid.field 1 rfl (by decide) (by have := l.rank.isLt; omega), laid.field 2 rfl (by decide) (by have := l.bank.isLt; omega),
    laid.field 3 rfl (by decide) (by have := l.column.isLt; omega), laid.unnamed (by simp [Apart]), ?_⟩
  simp [w, locWords, wordB, pack, placed]
  omega

/-- R66, R188: word 0 of READ_UE. -/
theorem uePage_word0 (r : UeRecord) (position held : Nat) :
    let w := (uePage r position held).getD 0 0
    field w 7 0 = r.id.toNat ∧ field w 9 8 = r.cls.code ∧ field w 11 10 = 0 ∧ field w 14 12 = r.origin.code ∧
    w.getLsbD 15 = r.inRetired ∧ field w 17 16 = r.ack.code ∧ w.getLsbD 18 = r.window.isSome ∧ w.getLsbD 19 = false ∧
    field w 23 20 = position % 2 ^ 4 ∧ field w 28 24 = held % 2 ^ 5 ∧ field w 31 29 = 0 := by
  intro w
  have laid : Laid w _ := ⟨rfl, by simp [flagBit]⟩
  exact ⟨laid.field 0 rfl (by decide) r.id.isLt, laid.field 1 rfl (by decide) r.cls.code_lt,
    laid.unnamed (by simp [flagBit, Apart]), laid.field 2 rfl (by decide) r.origin.code_lt, laid.bit 3 rfl (by decide),
    laid.field 4 rfl (by decide) r.ack.code_lt, laid.bit 5 rfl (by decide),
    laid.unnamed_bit (by simp [flagBit, Apart]), laid.field_mod 6 rfl (by decide), laid.field_mod 7 rfl (by decide),
    laid.unnamed (by simp [flagBit, Apart])⟩

theorem num_toNat (n : Nat) : (num n).toNat = n % 2 ^ 32 := BitVec.toNat_ofNat n 32

/-- R72, R188: the words of READ_UE_OVERFLOW whether a loss is kept or not. -/
theorem overflowPage_any (lost : Nat) (first : Option LostUe) :
    let w := fun k => (overflowPage lost first).getD k 0
    (w 0).toNat = lost % 2 ^ 32 ∧ (w 1).getLsbD 0 = first.isSome ∧ field (w 1) 7 1 = 0 ∧ field (w 1) 11 10 = 0 ∧
    field (w 1) 31 15 = 0 ∧ w 5 = 0 := by
  intro w
  cases first with
  | none =>
    have laid : Laid (w 1) [] := ⟨rfl, .nil⟩
    exact ⟨num_toNat lost, laid.unnamed_bit (by simp), laid.unnamed (by simp), laid.unnamed (by simp), laid.unnamed (by simp), rfl⟩
  | some l =>
    have laid : Laid (w 1) _ := ⟨rfl, by simp [flagBit]⟩
    exact ⟨num_toNat lost, laid.bit 0 rfl (by decide), laid.unnamed (by simp [flagBit, Apart]),
      laid.unnamed (by simp [flagBit, Apart]), laid.unnamed (by simp [flagBit, Apart]), rfl⟩

/-- R72, R188: the class and the origin of READ_UE_OVERFLOW while a loss is kept. -/
theorem overflowPage_kept (lost : Nat) (l : LostUe) :
    let w := (overflowPage lost (some l)).getD 1 0
    field w 9 8 = l.cls.code ∧ field w 14 12 = l.origin.code := by
  intro w
  have laid : Laid w _ := ⟨rfl, by simp [flagBit]⟩
  exact ⟨laid.field 1 rfl (by decide) l.cls.code_lt, laid.field 2 rfl (by decide) l.origin.code_lt⟩

/-- Settles O46: the four reads by their searches, the words by the places of their fields. -/
theorem listAndLogReads : Obligations.ListAndLogReads := by
  unfold Obligations.ListAndLogReads
  refine ⟨fun p s => ⟨fun h => ⟨fun i hi => h.readRetire hi, h.readRetire_beyond⟩,
      fun h => ⟨fun l hl => ⟨fun hw => ?_, fun hw => ⟨fun i a ha hi hb => ?_, fun hn => ?_⟩⟩, h.findRetire_beyond⟩⟩,
    fun p s => ⟨fun h => ⟨h.readUe_position, h.readUe_id, h.readUe_unnamed⟩,
      fun h => ⟨h.readUeOverflow, h.readUeOverflow_clear, h.readUeOverflow_unnamed⟩⟩,
    ⟨rfl, rfl, rfl⟩, fun a proposed confirmed => ?_, fun r position held lost first => ?_⟩
  · rw [h.findRetire hl, Loc.within, hw, if_neg Bool.false_ne_true]
  · exact h.findRetire_found hl hw ha (State.containing_eq_some ha hi hb)
  · rw [h.findRetire hl, Loc.within, if_pos hw, State.containing_eq_none.mpr hn]
  · obtain ⟨valid, state, origin, hasTime, absent, cet, ue, rest, suppressed⟩ := retirePage_word0 a proposed confirmed
    obtain ⟨channel, rank, bank, countP, countC, rest1, rest2⟩ := retirePage_word1 a proposed confirmed
    obtain ⟨free, freeP, freeC, free1, free2⟩ := retirePage_free_word1 proposed confirmed
    have first := a.range.first.isLt
    have last := a.range.last.isLt
    exact ⟨valid, state, origin, hasTime, absent, cet, ue, rest, suppressed, channel, rank, bank, countP, countC, rest1, rest2,
      toNat_of_num rfl (by omega), toNat_of_num rfl (by omega), rfl, fun t ht => by simp [retirePage, ht], rfl, free, freeP, freeC,
      free1, free2, rfl, rfl, rfl, rfl⟩
  · obtain ⟨id, cls, rest, origin, inRetired, ack, window, rest1, place, count, rest2⟩ := uePage_word0 r position held
    obtain ⟨channel, rank, bank, column, rest3, row⟩ := locWords_fields r.loc
    obtain ⟨counter, present, zero1, zero2, zero3, zero4⟩ := overflowPage_any lost first
    refine ⟨id, cls, rest, origin, inRetired, ack, window, rest1, place, count, rest2, channel, rank, bank, column, rest3, row, rfl,
      fun n hn => by simp [uePage, locWords, hn, num_toNat], rfl, counter, present, zero1, zero2, zero3,
      fun l hl => ?_, zero4⟩
    subst hl
    obtain ⟨lostCls, lostOrigin⟩ := overflowPage_kept lost l
    obtain ⟨lostChannel, lostRank, lostBank, lostColumn, lostRest, lostRow⟩ := locWords_fields l.loc
    exact ⟨lostCls, lostOrigin, lostChannel, lostRank, lostBank, lostColumn, lostRest, lostRow, rfl⟩

end Sys2Proof.Machine

/-! The append to the log with its proposal or its loss, and the expiries of the windows of its records (R45 to R48, R66 to R75). -/

namespace Sys2Proof.Machine

/-! ### Causes of the latch that a policy allows -/

theorem State.setFatal_overflow_if (s : State) (b : Bool) :
    (if b then s.setFatal .overflow else s) = s.setEvents { s.events with
      fatalLatch := s.events.fatalLatch || b, overflowCause := s.events.overflowCause || b } := by
  cases b <;> simp [State.setFatal, State.setEvents]

theorem State.setFatal_escalation_if (s : State) (b : Bool) :
    (if b then s.setFatal .escalation else s) = s.setEvents { s.events with
      fatalLatch := s.events.fatalLatch || b, escalationCause := s.events.escalationCause || b } := by
  cases b <;> simp [State.setFatal, State.setEvents]

/-! ### The proposal of a stored record -/

/-- R8, R9: the one-row range of a location overlaps the ranges that contain the location. -/
theorem Loc.rowRange_overlaps (l : Loc) (r : Range) : l.rowRange.overlaps r = l.inside r := by
  simp only [Range.overlaps, Loc.inside, Range.covers, Loc.rowRange, eq_comm (a := l.channel), eq_comm (a := l.rank),
    eq_comm (a := l.bank), and_comm (a := l.row.val ≤ r.last.val)]

section
variable {s : State} {a : UeAppend}

/-- R47, R48: no valid range contains the location exactly when none overlaps its row. -/
theorem State.overlapping_rowRange_eq_none {l : Loc} : s.overlapping l.rowRange = none ↔ s.containing l = none := by
  simp only [State.overlapping_eq_none, State.containing_eq_none, Loc.rowRange_overlaps]

theorem State.ueProposal_tables (s : State) (a : UeAppend) (id : BitVec 8) : TablesOnly s (s.ueProposal a id) := by
  unfold State.ueProposal
  split
  · exact s.propose_tables _ _
  · exact .refl s

theorem State.ueProposal_off (h : s.uel.policy.proposeOnUe = false) (id : BitVec 8) : s.ueProposal a id = s := by
  simp [State.ueProposal, h]

theorem State.ueProposal_inside (h : s.containing a.loc ≠ none) (id : BitVec 8) : s.ueProposal a id = s := by
  simp [State.ueProposal, h]

theorem State.ueProposal_outside (hp : s.uel.policy.proposeOnUe = true) (h : s.containing a.loc = none) (id : BitVec 8) :
    s.ueProposal a id = (s.propose a.loc.rowRange (.ue id)).1 := by
  simp [State.ueProposal, hp, h]

/-! ### The append -/

theorem State.appendUe_stored (h : s.uel.records.length < 16) : s.appendUe a = (s.storeUe a).ueProposal a s.uel.nextId :=
  if_pos h

theorem State.appendUe_lost (h : 16 ≤ s.uel.records.length) : s.appendUe a = s.loseUe a := if_neg (Nat.not_lt.mpr h)

theorem State.appendUe_off (h : s.uel.records.length < 16) (hp : s.uel.policy.proposeOnUe = false) :
    s.appendUe a = s.storeUe a :=
  (State.appendUe_stored h).trans (State.ueProposal_off (s := s.storeUe a) hp _)

/-- R71: the proposal for a record outside every valid range. -/
theorem State.appendUe_outside (h : s.uel.records.length < 16) (hp : s.uel.policy.proposeOnUe = true)
    (hn : s.containing a.loc = none) :
    s.appendUe a = ((s.storeUe a).propose a.loc.rowRange (.ue s.uel.nextId)).1 :=
  (State.appendUe_stored h).trans (State.ueProposal_outside (s := s.storeUe a) hp hn _)

theorem State.appendUe_created (h : s.uel.records.length < 16) (hp : s.uel.policy.proposeOnUe = true)
    (hn : s.containing a.loc = none) {j : RetIdx} (hj : s.freeRetire = some j) :
    s.appendUe a = ((s.storeUe a).setRetEntry j
      (some (proposedEntry a.loc.rowRange (.ue s.uel.nextId) s.now))).setFlag .retireProposed := by
  rw [State.appendUe_outside h hp hn,
    State.propose_created (s := s.storeUe a) _ (State.overlapping_rowRange_eq_none.mpr hn) hj]
  rfl

theorem State.appendUe_refused (h : s.uel.records.length < 16) (hp : s.uel.policy.proposeOnUe = true)
    (hn : s.containing a.loc = none) (hf : s.freeRetire = none) :
    s.appendUe a = ((s.storeUe a).setRetire { s.retire with refused := satInc s.retire.refused }).setFlag .retireListFull := by
  rw [State.appendUe_outside h hp hn,
    State.propose_full (s := s.storeUe a) _ (State.overlapping_rowRange_eq_none.mpr hn) hf]
  rfl

theorem State.appendUe_inside (h : s.uel.records.length < 16) {i : RetIdx} {b : RetEntry} (hb : s.retired i = some b)
    (hi : a.loc.inside b.range = true) : s.appendUe a = s.storeUe a := by
  rw [State.appendUe_stored h]
  refine State.ueProposal_inside (fun hn => ?_) _
  simp [State.containing_eq_none.mp hn i b hb] at hi

end

/-- R72: the first loss is kept, and the latch is set where the policy says so. -/
theorem State.loseUe_eq (s : State) (a : UeAppend) : s.loseUe a = { s with
    uel := { s.uel with
      overflow := min (s.uel.overflow + 1) 65535
      firstLost := s.uel.firstLost.or (some ⟨a.loc, a.cls, a.origin, s.clock.time⟩) }
    events := { s.events with
      flags := s.events.flags ||| EventFlag.uelOverflow.mask
      fatalLatch := s.events.fatalLatch || s.uel.policy.fatalOnOverflow
      overflowCause := s.events.overflowCause || s.uel.policy.fatalOnOverflow } } := by
  rw [State.loseUe, State.setFatal_overflow_if]
  rfl

/-- Settles O50: the record is stored first, and the proposal sees the list that the store leaves as it was. -/
theorem appendStoresProposesOrLoses : Obligations.AppendStoresProposesOrLoses := by
  unfold Obligations.AppendStoresProposesOrLoses
  refine ⟨fun a s => ⟨fun h off => ?_, fun h => ?_⟩, fun a s h on => ?_⟩
  · exact State.appendUe_off h off
  · rw [State.appendUe_lost h, State.loseUe_eq]
    cases s.uel.firstLost <;> rfl
  · have kept : TablesOnly (s.storeUe a) (s.appendUe a) := State.appendUe_stored h ▸ State.ueProposal_tables _ a _
    have logged : (s.storeUe a).flagged .ueLogged = true := by simp [State.storeUe, State.flagged_setFlag]
    refine ⟨kept.uel, ?_, kept.flagged logged, fun ⟨i, b, hb, hi⟩ => State.appendUe_inside h hb hi,
      fun outside => ⟨fun j hj hl => ?_, fun full => ?_⟩⟩
    · rw [kept.uel]
      exact List.length_append
    · rw [State.appendUe_created h on (State.containing_eq_none.mpr outside) (State.freeRetire_eq_some hj hl)]
      rfl
    · rw [State.appendUe_refused h on (State.containing_eq_none.mpr outside) (State.freeRetire_eq_none full)]
      rfl

/-! ### The expiries of the windows -/

section
variable {s : State} {i : Nat} {k : AckState}

theorem State.windowExpired_of_record {r : UeRecord} (hr : s.uel.records[i]? = some r) (hk : r.ack = k)
    (hw : r.window = some 0) : s.windowExpired i k = true := by
  simp [State.windowExpired, State.ueAt, hr, hk, hw, Timer.expired]

theorem State.windowExpired_eq_false (h : ∀ r, s.uel.records[i]? = some r → r.ack ≠ k ∨ r.window ≠ some 0) :
    s.windowExpired i k = false := by
  cases hr : s.uel.records[i]? with
  | none => simp [State.windowExpired, State.ueAt, hr]
  | some r => simpa [State.windowExpired, State.ueAt, hr, Timer.expired, imp_iff_not_or] using h r hr

/-- A change in place writes the changed record at its position. -/
theorem State.modUe_eq {r : UeRecord} (hr : s.uel.records[i]? = some r) (f : UeRecord → UeRecord) :
    s.modUe i f = s.setUel { s.uel with records := s.uel.records.set i (f r) } := by
  rw [State.modUe, List.modify_eq_set_getElem?, hr]
  rfl

theorem State.handOver_eq {r : UeRecord} (hr : s.uel.records[i]? = some r) : s.handOver i = (s.setUel { s.uel with
    records := s.uel.records.set i
      { r with ack := .handedOver, window := Timer.ofSetting s.uel.policy.serviceWindow } }).setFlag .ueHandover := by
  rw [State.handOver, State.modUe_eq hr]

theorem State.escalate_eq {r : UeRecord} (hr : s.uel.records[i]? = some r) : s.escalate i = { s with
    uel := { s.uel with records := s.uel.records.set i { r with ack := .escalated, window := none } }
    events := { s.events with
      flags := s.events.flags ||| EventFlag.ueEscalated.mask
      fatalLatch := s.events.fatalLatch || s.uel.policy.fatalOnEscalation
      escalationCause := s.events.escalationCause || s.uel.policy.fatalOnEscalation } } := by
  rw [State.escalate, State.setFatal_escalation_if, State.modUe_eq hr]
  rfl

end

/-- R74: what the row SYSTEM_WINDOW_EXPIRY of a position does to a part that is not in reset. -/
def State.expireSystemWindow (s : State) (i : Nat) : State := if s.windowExpired i .opened then s.handOver i else s

/-- R75: what the row SERVICE_WINDOW_EXPIRY of a position does to a part that is not in reset. -/
def State.expireServiceWindow (s : State) (i : Nat) : State := if s.windowExpired i .handedOver then s.escalate i else s

theorem exec_systemWindowExpiry {s : State} (h : s.rst = false) (i : Fin 16) :
    exec (.systemWindowExpiry i) s = .next (s.expireSystemWindow i.val) := State.whileRunning_running h _

theorem exec_serviceWindowExpiry {s : State} (h : s.rst = false) (i : Fin 16) :
    exec (.serviceWindowExpiry i) s = .next (s.expireServiceWindow i.val) := State.whileRunning_running h _

theorem State.expireSystemWindow_rst (s : State) (i : Nat) : (s.expireSystemWindow i).rst = s.rst := by
  unfold State.expireSystemWindow
  split <;> rfl

section
variable {i j : Nat}

theorem State.handOver_windowExpired (s : State) (h : i ≠ j) (k : AckState) :
    (s.handOver i).windowExpired j k = s.windowExpired j k :=
  congrArg (Option.any _) (List.getElem?_modify_ne _ s.uel.records h)

theorem State.handOver_comm (s : State) (h : i ≠ j) : (s.handOver i).handOver j = (s.handOver j).handOver i := by
  simp only [State.handOver, State.modUe, State.setFlag, State.setEvents, State.setUel]
  rw [List.modify_modify_ne _ _ _ h]

/-- R74: two expiries have the same outcome in both orders, since neither touches the record of the other. -/
theorem State.expireSystemWindow_comm (s : State) (i j : Nat) :
    (s.expireSystemWindow i).expireSystemWindow j = (s.expireSystemWindow j).expireSystemWindow i := by
  by_cases h : i = j
  · rw [h]
  · cases hi : s.windowExpired i .opened <;> cases hj : s.windowExpired j .opened <;>
      simp [State.expireSystemWindow, hi, hj, s.handOver_windowExpired h, s.handOver_windowExpired (Ne.symm h), s.handOver_comm h]

end

/-- Settles O51: each expiry by the record at its position, and the two orders by their commutation. -/
theorem windowExpiries : Obligations.WindowExpiries := by
  unfold Obligations.WindowExpiries
  intro i s running
  have system := exec_systemWindowExpiry running
  have service := exec_serviceWindowExpiry running
  refine ⟨fun r hr ha hw => ?_, fun r hr ha hw => ?_, fun h => ?_, fun h => ?_, fun j t u ht hu => ?_⟩
  · rw [system, State.expireSystemWindow, if_pos (State.windowExpired_of_record hr ha hw), State.handOver_eq hr]
    rfl
  · rw [service, State.expireServiceWindow, if_pos (State.windowExpired_of_record hr ha hw), State.escalate_eq hr]
  · rw [system, State.expireSystemWindow, State.windowExpired_eq_false h, if_neg Bool.false_ne_true]
  · rw [service, State.expireServiceWindow, State.windowExpired_eq_false h, if_neg Bool.false_ne_true]
  · rw [system] at ht hu
    cases ht
    cases hu
    have running_after (k : Nat) : (s.expireSystemWindow k).rst = false := (s.expireSystemWindow_rst k).trans running
    refine ⟨_, exec_systemWindowExpiry (running_after i.val) j, ?_⟩
    rw [exec_systemWindowExpiry (running_after j.val), State.expireSystemWindow_comm]

end Sys2Proof.Machine

/-! The intake: the report that INJECT_REPORT places in the slot, the choice of the arbiter, the credit that a take returns, and the
places to which the classifier sends an ERROR report (R86 to R94, R100, R118). -/

namespace Sys2Proof.Machine

/-! ### INJECT_REPORT -/

theorem errClassOfCode_bits (c : ErrClass) : errClassOfCode (errClassBits c) = some c := by cases c <;> rfl

theorem errClassBits_lt (c : ErrClass) : errClassBits c < 4 := by cases c <;> decide

theorem errClassOfCode_none {n : Nat} (h : 4 ≤ n) : errClassOfCode n = none := by
  match n with
  | _ + 4 => rfl

section
variable {s : State} {p : Port}

theorem State.latch_intake (s : State) (p : Port) : (s.latch p).intake = s.intake := by cases p <;> rfl

/-- R87: INJECT_REPORT of a location and a class, by the slot. -/
theorem State.Takes.injectReport (h : s.Takes p 66) {l : Loc} {c : ErrClass} (hl : LocWords (s.param p 0) (s.param p 1) l)
    (hc : s.param p 2 = num (errClassBits c)) : exec .injectReport s =
      .next (match s.intake.slot with
        | none => (s.setIntake { s.intake with slot := some ⟨l, c⟩ }).withOk p []
        | some _ => s.withRefusal p .busy) := by
  refine (h.run_any bodyInjectReport).trans (congrArg _ ?_)
  have location : locParam ((s.mail p).params.get 0) ((s.mail p).params.get 1) = some l := hl.param
  have cls : errClassOfCode ((s.mail p).params.get 2).toNat = some c := by
    rw [toNat_of_num (w := (s.mail p).params.get 2) hc (by have := errClassBits_lt c; omega), errClassOfCode_bits]
  simp only [bodyInjectReport, location, cls, s.latch_intake]
  cases s.intake.slot with
  | none => cases p <;> rfl
  | some r => exact s.answered_latch p _ _

/-- R87: the parameter tests come before the test of the slot. -/
theorem State.Takes.injectReport_beyond (h : s.Takes p 66)
    (hb : 4 ≤ (s.param p 2).toNat ∨ BeyondRange (s.param p 0) (s.param p 1)) :
    exec .injectReport s = .next (s.withRefusal p .badParam) := by
  refine (h.run_any bodyInjectReport).trans (congrArg _ ?_)
  have refused : bodyInjectReport p (s.mail p).params (s.latch p) = (s.latch p, refusal .badParam) := by
    rcases hb with hc | hl
    · have cls : errClassOfCode ((s.mail p).params.get 2).toNat = none := errClassOfCode_none hc
      simp [bodyInjectReport, cls]
    · have location : locParam ((s.mail p).params.get 0) ((s.mail p).params.get 1) = none := hl.param
      simp [bodyInjectReport, location]
  rw [refused]
  exact s.answered_latch p _ _

end

/-- Settles O16: the parameter tests first, then the slot. -/
theorem injectReportFillsSlot : Obligations.InjectReportFillsSlot := by
  unfold Obligations.InjectReportFillsSlot
  refine fun p l c s h => ⟨fun hl hc => ⟨fun empty => ?_, fun full => ?_⟩, h.injectReport_beyond⟩
  · rw [h.injectReport hl hc, empty]
    rfl
  · obtain ⟨r, hr⟩ := Option.ne_none_iff_exists'.mp full
    rw [h.injectReport hl hc, hr]

/-! ### The choice of the arbiter -/

theorem Source.mem_all (x : Source) : x ∈ allSources := by
  cases x with
  | channel ch => simp [allSources]
  | slot => simp [allSources]

theorem Source.mem_following (last x : Source) : x ∈ last.following := List.mem_rotate.mpr x.mem_all

/-- R89: from channel 0 on, the sources stand by their place. -/
theorem allSources_sorted : allSources.Pairwise (fun x y => x.place ≤ y.place) := by decide

/-- R89: the search behind the last-served source meets the sources by their turn. -/
theorem Source.following_sorted (last : Source) :
    last.following.Pairwise (fun x y => Source.turns last x ≤ Source.turns last y) := by
  have each : ∀ x ∈ allSources, x.following.Pairwise (fun y z => Source.turns x y ≤ Source.turns x z) := by decide
  exact each last last.mem_all

/-- The first element found in a sorted list is a least one that satisfies the test. -/
theorem find?_least {α : Type} {key : α → Nat} {p : α → Bool} {xs : List α} {x y : α}
    (sorted : xs.Pairwise (fun a b => key a ≤ key b)) (found : xs.find? p = some x) (hy : y ∈ xs) (hp : p y = true) :
    key x ≤ key y := by
  obtain ⟨-, before, after, rfl, none_before⟩ := List.find?_eq_some_iff_append.mp found
  rcases List.mem_append.mp hy with hb | ha
  · exact absurd hp (by simpa using none_before y hb)
  · rcases List.mem_cons.mp ha with rfl | ha
    · exact le_rfl
    · obtain ⟨-, tail_sorted, -⟩ := List.pairwise_append.mp sorted
      exact List.rel_of_pairwise_cons tail_sorted ha

section
variable {s : State} {x : Source}

theorem State.choose_rotating (h : s.intake.mode = .rotating) :
    s.choose = s.intake.lastServed.following.find? s.nonEmpty := by
  rw [State.choose, h]

theorem State.choose_fixed (h : s.intake.mode = .fixed) : s.choose = allSources.find? s.nonEmpty := by
  rw [State.choose, h]

/-- R90: no source is chosen exactly when every source is empty. -/
theorem State.choose_eq_none : s.choose = none ↔ ∀ x, s.nonEmpty x = false := by
  cases h : s.intake.mode with
  | rotating => simp [State.choose_rotating h, Source.mem_following]
  | fixed => simp [State.choose_fixed h, Source.mem_all]

theorem State.nonEmpty_of_choose (h : s.choose = some x) : s.nonEmpty x = true := by
  cases hm : s.intake.mode with
  | rotating => exact List.find?_some ((State.choose_rotating hm).symm.trans h)
  | fixed => exact List.find?_some ((State.choose_fixed hm).symm.trans h)

theorem State.choose_turns_le (h : s.choose = some x) (hm : s.intake.mode = .rotating) {y : Source}
    (hy : s.nonEmpty y = true) : Source.turns s.intake.lastServed x ≤ Source.turns s.intake.lastServed y :=
  find?_least (Source.following_sorted _) ((State.choose_rotating hm).symm.trans h) (Source.mem_following _ y) hy

theorem State.choose_place_le (h : s.choose = some x) (hm : s.intake.mode = .fixed) {y : Source}
    (hy : s.nonEmpty y = true) : x.place ≤ y.place :=
  find?_least allSources_sorted ((State.choose_fixed hm).symm.trans h) y.mem_all hy

end

/-! ### What no classification touches

The classifier hands a report to the tables, the log, the scrub engine and its own counters. -/

/-- The sources of the intake arbiter and the link receivers and transmitters behind them. -/
structure Upstream where
  queues : Table (List Report) 8
  intake : Intake
  links  : Table Link 8
  txs    : Table Transmitter 8

def State.upstream (s : State) : Upstream := ⟨s.queues, s.intake, s.links, s.txs⟩

theorem State.of_upstream {s t : State} (h : t.upstream = s.upstream) :
    t.queues = s.queues ∧ t.intake = s.intake ∧ t.links = s.links ∧ t.txs = s.txs := by
  simpa [State.upstream] using h

theorem TablesOnly.upstream_kept {s t : State} (h : TablesOnly s t) : t.upstream = s.upstream := by
  simp only [State.upstream, h.queues, h.intake, h.links, h.txs]

section
variable (s : State)

@[simp] theorem State.modClassifier_upstream (ch : Chan) (f : ClassifierCounters → ClassifierCounters) :
    (s.modClassifier ch f).upstream = s.upstream := rfl

@[simp] theorem State.countMalformed_upstream (ch : Chan) : (s.countMalformed ch).upstream = s.upstream := rfl

@[simp] theorem State.countSkipped_upstream (ch : Chan) : (s.countSkipped ch).upstream = s.upstream := rfl

@[simp] theorem State.freeTag_upstream (ch : Chan) (tag : Tag) : (s.freeTag ch tag).upstream = s.upstream := rfl

@[simp] theorem State.endRead_upstream (ch : Chan) (tag : Tag) (number : BitVec 8) (x : Option ReadResult) :
    (s.endRead ch tag number x).upstream = s.upstream := (s.endRead_tables ch tag number x).upstream_kept

theorem State.loseUe_upstream (a : UeAppend) : (s.loseUe a).upstream = s.upstream := by
  rw [State.loseUe_eq]
  rfl

@[simp] theorem State.appendUe_upstream (a : UeAppend) : (s.appendUe a).upstream = s.upstream := by
  unfold State.appendUe
  split
  · exact ((s.storeUe a).ueProposal_tables a _).upstream_kept
  · exact s.loseUe_upstream a

@[simp] theorem State.routeCorrected_upstream (l : Loc) (cls : CeClass) (o : Origin) :
    (s.routeCorrected l cls o).upstream = s.upstream := by
  unfold State.routeCorrected
  split
  · exact (s.suppress_tables _).upstream_kept
  · exact (s.takeCe_tables _).upstream_kept

@[simp] theorem State.routeUncorrectable_upstream (l : Loc) (cls : UeClass) (o : Origin) :
    (s.routeUncorrectable l cls o).upstream = s.upstream := s.appendUe_upstream _

@[simp] theorem State.classifyError_upstream (l : Loc) (cls : ErrClass) (o : Origin) :
    (s.classifyError l cls o).upstream = s.upstream := by
  unfold State.classifyError
  split
  · split <;> simp
  · simp

@[simp] theorem State.malformedReply_upstream (ch : Chan) (r : ScrubReply) (q : Request) :
    (s.malformedReply ch r q).upstream = s.upstream := by
  unfold State.malformedReply
  dsimp only
  split <;> simp

@[simp] theorem State.patrolReply_upstream (ch : Chan) (r : ScrubReply) (q : Request) :
    (s.patrolReply ch r q).upstream = s.upstream := by
  unfold State.patrolReply
  split <;> simp

@[simp] theorem State.verifyReply_upstream (ch : Chan) (r : ScrubReply) (q : Request) :
    (s.verifyReply ch r q).upstream = s.upstream := by
  unfold State.verifyReply
  dsimp only
  split <;> simp

@[simp] theorem State.classifyReply_upstream (ch : Chan) (r : ScrubReply) : (s.classifyReply ch r).upstream = s.upstream := by
  unfold State.classifyReply
  split
  · simp
  · dsimp only
    split
    · simp
    · split <;> simp

theorem State.classify_upstream (ch : Chan) (r : Report) : (s.classify ch r).upstream = s.upstream := by
  cases r with
  | error e => exact s.classifyError_upstream _ _ _
  | reply x => exact s.classifyReply_upstream ch x

end

/-! ### The credit of a take -/

section
variable {s : State} {ch : Chan}

theorem State.returnCredit_inactive (h : (s.link ch).state ≠ .active) : s.returnCredit ch = s := by
  simp [State.returnCredit, State.linkActive, h]

/-- R118: the batch is full, or the take has emptied the queue. -/
theorem State.returnCredit_all (h : (s.link ch).state = .active)
    (hb : s.batch ≤ (s.link ch).awaiting + 1 ∨ s.queues.get ch = []) : s.returnCredit ch =
      (s.modLink ch (fun l => { l with outstanding := l.outstanding + (l.awaiting + 1), awaiting := 0 })).modTx ch
        (fun x => x.sendCredit ((s.link ch).awaiting + 1)) := by
  have due : s.batch ≤ (s.link ch).awaiting + 1 ∨ s.queued ch = 0 := hb.imp_right List.length_eq_zero_iff.mpr
  simp only [State.returnCredit, State.linkActive, h, beq_self_eq_true, if_true, if_pos due]
  rfl

theorem State.returnCredit_one (h : (s.link ch).state = .active) (hb : (s.link ch).awaiting + 1 < s.batch)
    (hq : s.queues.get ch ≠ []) : s.returnCredit ch = s.modLink ch (fun l => { l with awaiting := l.awaiting + 1 }) := by
  have due : ¬(s.batch ≤ (s.link ch).awaiting + 1 ∨ s.queued ch = 0) :=
    not_or.mpr ⟨Nat.not_le.mpr hb, mt List.length_eq_zero_iff.mp hq⟩
  simp only [State.returnCredit, State.linkActive, h, beq_self_eq_true, if_true, if_neg due]
  rfl

/-- A returned credit changes the link of its channel and the transmitters alone. -/
theorem State.returnCredit_frame (s : State) (ch : Chan) :
    (s.returnCredit ch).queues = s.queues ∧ (s.returnCredit ch).intake = s.intake ∧
      ∀ c, c ≠ ch → (s.returnCredit ch).link c = s.link c := by
  unfold State.returnCredit State.sendCredit
  split
  · dsimp only
    split
    · exact ⟨rfl, rfl, fun c hc => Table.get_modify_ne _ _ hc⟩
    · exact ⟨rfl, rfl, fun c hc => Table.get_modify_ne _ _ hc⟩
  · exact ⟨rfl, rfl, fun _ _ => rfl⟩

end

/-! ### The take -/

/-- R86: the head report has left the queue of a channel, which is now the last-served source. -/
def State.beheaded (s : State) (ch : Chan) : State := (s.serve (.channel ch)).setQueues (s.queues.set ch (s.queues.get ch).tail)

/-- R87: the report has left the injection slot, which is now the last-served source. -/
def State.vacated (s : State) : State := s.setIntake { s.intake with slot := none, lastServed := .slot }

section
variable {s : State}

theorem exec_intakeTake (hr : s.rst = false) : exec .intakeTake s = .next s.take := State.whileRunning_running hr _

theorem State.take_none (h : s.choose = none) : s.take = s := by rw [State.take, h]

/-- R90: a take of a queue is the classification of its head report, in the state with the credits counted. -/
theorem State.take_channel {ch : Chan} {r : Report} {rest : List Report} (h : s.choose = some (.channel ch))
    (hq : s.queues.get ch = r :: rest) : s.take = ((s.beheaded ch).returnCredit ch).classify ch r := by
  simp only [State.take, h, State.takeFrom, State.beheaded, hq, List.tail_cons]

theorem State.take_slot {r : InjectedReport} (h : s.choose = some .slot) (hs : s.intake.slot = some r) :
    s.take = s.vacated.classifyError r.loc r.cls .injected := by
  simp only [State.take, h, State.takeSlot, State.vacated, hs]

/-- R86, R87, R89: what a take leaves of the sources and of the arbiter. -/
theorem State.take_sources {x : Source} (h : s.choose = some x) :
    s.take.intake = { s.intake with slot := if x = .slot then none else s.intake.slot, lastServed := x } ∧
      ∀ c, s.take.queues.get c = if x = .channel c then (s.queues.get c).tail else s.queues.get c := by
  have held := State.nonEmpty_of_choose h
  cases x with
  | channel ch =>
    obtain ⟨r, rest, hq⟩ := List.exists_cons_of_ne_nil (show s.queues.get ch ≠ [] by simpa [State.nonEmpty] using held)
    obtain ⟨queues, intake, -⟩ := (s.beheaded ch).returnCredit_frame ch
    obtain ⟨keptQueues, keptIntake, -⟩ := State.of_upstream (((s.beheaded ch).returnCredit ch).classify_upstream ch r)
    rw [State.take_channel h hq, keptIntake, intake, keptQueues, queues]
    refine ⟨rfl, fun c => (Table.get_set _ _ _ _).trans ?_⟩
    by_cases hc : c = ch
    · simp [hc]
    · simp [hc, Ne.symm hc]
  | slot =>
    obtain ⟨r, hs⟩ := Option.isSome_iff_exists.mp held
    obtain ⟨queues, intake, -⟩ := State.of_upstream (s.vacated.classifyError_upstream r.loc r.cls .injected)
    rw [State.take_slot h hs, intake, queues]
    exact ⟨rfl, fun c => rfl⟩

end

/-- Settles O35: the choice by the sorted search, and the take of a queue by what the credit of its link comes to. -/
theorem takeServesSourceInOrder : Obligations.TakeServesSourceInOrder := by
  unfold Obligations.TakeServesSourceInOrder
  refine ⟨fun s hr => ⟨fun empty => ?_, fun ⟨y, hy⟩ => ?_⟩, fun ch r rest s hr hc hq => ?_⟩
  · rw [exec_intakeTake hr, State.take_none (State.choose_eq_none.mpr empty)]
  · have chosen : s.choose ≠ none := fun hn => by simp [State.choose_eq_none.mp hn y] at hy
    obtain ⟨x, hx⟩ := Option.ne_none_iff_exists'.mp chosen
    obtain ⟨intake, queues⟩ := State.take_sources hx
    refine ⟨s.take, x, exec_intakeTake hr, State.nonEmpty_of_choose hx, ?_, fun hm z => State.choose_turns_le hx hm,
      fun hm z => State.choose_place_le hx hm, ?_, queues, ?_⟩
    all_goals rw [intake]
  · intro l taken
    have beheaded : s.beheaded ch = taken := by rw [State.beheaded, hq]; rfl
    have queue : taken.queues.get ch = rest := Table.get_set_self _ _ _
    have run : exec .intakeTake s = .next ((taken.returnCredit ch).classify ch r) := by
      rw [exec_intakeTake hr, State.take_channel hc hq, beheaded]
    obtain ⟨-, -, links, txs⟩ := State.of_upstream ((taken.returnCredit ch).classify_upstream ch r)
    have inactive (h : l.state ≠ .active) : taken.returnCredit ch = taken := State.returnCredit_inactive h
    have all (h : l.state = .active) (hb : s.batch ≤ l.awaiting + 1 ∨ rest = []) :=
      State.returnCredit_all (s := taken) h (by rwa [queue])
    have one (h : l.state = .active) (hb : l.awaiting + 1 < s.batch) (hn : rest ≠ []) :=
      State.returnCredit_one (s := taken) h hb (by rwa [queue])
    refine ⟨fun h => ?_, fun h hb => ?_, fun h hb hn => ?_, _, run, fun c hne => ?_, fun h => ?_, fun h hb => ?_,
      fun h hb hn => ?_⟩
    · rw [run, inactive h]
    · rw [run, all h hb]
      rfl
    · rw [run, one h hb hn]
      rfl
    · obtain ⟨-, -, others⟩ := taken.returnCredit_frame ch
      rw [State.link, links]
      exact others c hne
    · rw [State.link, links, txs, inactive h]
      exact ⟨rfl, rfl⟩
    · rw [State.link, links, txs, all h hb]
      exact ⟨Table.get_modify_self _ _ _, rfl⟩
    · rw [State.link, links, txs, one h hb hn]
      exact ⟨Table.get_modify_self _ _ _, rfl⟩

/-! ### The places of an ERROR report -/

end Sys2Proof.Machine

namespace Sys2Proof

/-- The class of a report that makes a CE record of a class. -/
def CeClass.reported : CeClass → ErrClass
  | .bit => .bit
  | .symbol => .symbol

@[simp] theorem CeClass.corrected_reported (c : CeClass) : c.reported.corrected = some c := by cases c <;> rfl

/-- The class of a report that makes a UE record of a class. -/
def Machine.UeClass.reported : Machine.UeClass → ErrClass
  | .uncorrectable => .uncorrectable
  | .poison => .poison

@[simp] theorem Machine.UeClass.corrected_reported (c : Machine.UeClass) : c.reported.corrected = none := by cases c <;> rfl

@[simp] theorem Machine.UeClass.uncorrected_reported (c : Machine.UeClass) : c.reported.uncorrected = c := by cases c <;> rfl

end Sys2Proof

namespace Sys2Proof.Machine

theorem State.suppress_eq {s : State} {i : RetIdx} {a : RetEntry} (ha : s.retired i = some a) :
    s.suppress i = s.setRetEntry i (some { a with suppressed := satInc a.suppressed }) := by
  rw [State.suppress, show s.retire.entries.get i = some a from ha, Option.map_some]

section
variable {s : State} {l : Loc} {cls : ErrClass} {o : Origin}

/-- R92, R100: outside the geometry. -/
theorem State.classifyError_outside (h : l.within (s.geometry l.channel) = false) :
    s.classifyError l cls o = s.countMalformed l.channel := by
  simp [State.classifyError, h]

theorem State.classifyError_corrected (h : l.within (s.geometry l.channel) = true) {c : CeClass} (hc : cls = c.reported) :
    s.classifyError l cls o = s.routeCorrected l c o := by
  simp [State.classifyError, h, hc]

/-- R93: corrected, inside a CONFIRMED range. -/
theorem State.classifyError_suppressed (h : l.within (s.geometry l.channel) = true) {c : CeClass} (hc : cls = c.reported)
    {i : RetIdx} {a : RetEntry} (hl : s.lookupLoc l = some i) (ha : s.retired i = some a) :
    s.classifyError l cls o = s.setRetEntry i (some { a with suppressed := satInc a.suppressed }) := by
  rw [State.classifyError_corrected h hc, State.routeCorrected, hl]
  exact State.suppress_eq ha

/-- R93: corrected, outside every CONFIRMED range. -/
theorem State.classifyError_toCet (h : l.within (s.geometry l.channel) = true) {c : CeClass} (hc : cls = c.reported)
    (hl : s.lookupLoc l = none) : s.classifyError l cls o = s.takeCe ⟨l, c, o, s.now⟩ := by
  rw [State.classifyError_corrected h hc, State.routeCorrected, hl]

/-- R94: uncorrectable. -/
theorem State.classifyError_toUel (h : l.within (s.geometry l.channel) = true) {c : UeClass} (hc : cls = c.reported) :
    s.classifyError l cls o = s.appendUe ⟨l, c, o, (s.lookupLoc l).isSome⟩ := by
  simp [State.classifyError, h, hc, State.routeUncorrectable]

end

/-- Settles O36: the take of the slot and the classification of an ERROR report are the same four cases. -/
theorem reportRoutes : Obligations.ReportRoutes := by
  unfold Obligations.ReportRoutes
  refine ⟨fun r s hr chosen held => ?_, fun ch r s => ?_⟩
  · have run : exec .intakeTake s = .next (s.vacated.classifyError r.loc r.cls .injected) := by
      rw [exec_intakeTake hr, State.take_slot chosen held]
    refine ⟨fun hw => ?_, fun c i a hw hc hl ha => ?_, fun c hw hc hl => ?_, fun c hw hc => ?_⟩
    · exact run.trans (congrArg _ (State.classifyError_outside (s := s.vacated) hw))
    · exact run.trans (congrArg _ (State.classifyError_suppressed (s := s.vacated) hw hc hl ha))
    · exact run.trans (congrArg _ (State.classifyError_toCet (s := s.vacated) hw hc hl))
    · exact run.trans (congrArg _ (State.classifyError_toUel (s := s.vacated) hw hc))
  · intro l origin inside
    have run : s.classify ch (.error r) = s.classifyError l r.cls origin := by
      have reported : r.origin.origin = origin := by cases h : r.origin <;> simp only [origin, h] <;> rfl
      rw [← reported]
      rfl
    refine ⟨fun hw => ?_, fun c i a hw hc hl ha => ?_, fun c hw hc hl => ?_, fun c hw hc => ?_⟩
    · exact run.trans (State.classifyError_outside hw)
    · exact run.trans (State.classifyError_suppressed hw hc hl ha)
    · exact run.trans (State.classifyError_toCet hw hc hl)
    · exact run.trans (State.classifyError_toUel hw hc)

end Sys2Proof.Machine

/-! What a command may do to the intake queue, the link receiver, the transmitter and the scrub context of a channel, and the laws of
these that it keeps (R85, R104, R107, R111, R114, R118, R128, R131, R137, R141). -/

namespace Sys2Proof.Machine

/-! ### The parts of a channel and what the laws say of them -/

/-- The intake queue, the link receiver, the transmitter and the scrub context of a channel. -/
structure Lane where
  queue : List Report
  link  : Link
  tx    : Transmitter
  scrub : Scrub

/-- The parts of a channel of a state. -/
def State.lane (s : State) (ch : Chan) : Lane := ⟨s.queues.get ch, s.link ch, s.txs.get ch, s.scrub ch⟩

/-- A channel at Full reset. -/
def Lane.held : Lane := ⟨[], Link.held, ⟨[], none⟩, Scrub.held⟩

/-- R85, R118. -/
def Lane.CreditLaw (a : Lane) : Prop :=
  a.queue.length ≤ 6 ∧
  (if a.link.state = .active then
    a.queue.length + a.link.outstanding + a.link.awaiting = 6 ∧ (a.queue = [] → a.link.awaiting = 0)
  else a.link.outstanding = 0 ∧ a.link.awaiting = 0)

/-- R107, R111, R114. -/
def Link.Law (l : Link) : Prop :=
  (if l.state = .syncing then 1 ≤ l.attempts ∧ l.attempts ≤ 3 ∧ l.attemptTimer.isSome
    else l.attempts = 0 ∧ l.attemptTimer = none) ∧
  l.checkFailures < 4 ∧ (l.state ≠ .active → l.checkFailures = 0)

/-- R138, R140: a patrol is DRAINING or HELD only under a hold and RUNNING only without one, and only a hold has a ceiling. -/
def Scrub.Sound (c : Scrub) : Prop :=
  (c.patrol = .draining ∨ c.patrol = .held → c.holdFlag = true) ∧ (c.patrol = .running → c.holdFlag = false) ∧
    (c.holdFlag = false → c.ceilingTimer = none)

/-- R131, R137, R141: no request, no hold and no run of timeouts. -/
def Scrub.Quiet (c : Scrub) : Prop := (∀ tag : Tag, c.tags.get tag = none) ∧ c.holdFlag = false ∧ c.timeoutRun = 0

/-- R128, R131, R137, R141. -/
def Lane.ScrubLaw (a : Lane) : Prop :=
  (a.link.state ≠ .active → a.scrub.Quiet) ∧ a.scrub.Sound ∧ a.scrub.timeoutRun < 3

/-- R104: at most one CREDIT, one SYNC_REQUEST and one SCRUB_REQUEST for each tag wait. -/
def Transmitter.Bounded (x : Transmitter) : Prop :=
  x.waiting.countP DownFrame.isCredit ≤ 1 ∧ x.waiting.countP DownFrame.isSync ≤ 1 ∧
    ∀ tag : Tag, x.waiting.countP (DownFrame.isRequestOf tag) ≤ 1

/-- R104. -/
def Lane.TransmitterLaw (a : Lane) : Prop := a.tx.Bounded ∧ (a.link.state = .down → a.tx = Transmitter.cut)

theorem State.creditLaw_iff {s : State} : s.CreditLaw ↔ ∀ ch, (s.lane ch).CreditLaw := Iff.rfl

theorem State.linkLaw_iff {s : State} : s.LinkLaw ↔ ∀ ch, (s.lane ch).link.Law := Iff.rfl

theorem State.scrubLaw_iff {s : State} : s.ScrubLaw ↔ ∀ ch, (s.lane ch).ScrubLaw := by
  refine forall_congr' fun ch => ⟨fun ⟨quiet, patrol, running, ceiling, run⟩ => ?_, fun ⟨quiet, sound, run⟩ => ?_⟩
  · exact ⟨quiet, ⟨patrol, running, ceiling⟩, run⟩
  · obtain ⟨patrol, running, ceiling⟩ := sound
    exact ⟨quiet, patrol, running, ceiling, run⟩

theorem State.transmitterLaw_iff {s : State} : s.TransmitterLaw ↔ ∀ ch, (s.lane ch).TransmitterLaw := by
  refine forall_congr' fun ch => ⟨fun ⟨credit, sync, request, down⟩ => ?_, fun ⟨bounded, down⟩ => ?_⟩
  · exact ⟨⟨credit, sync, request⟩, down⟩
  · obtain ⟨credit, sync, request⟩ := bounded
    exact ⟨credit, sync, request, down⟩

/-! ### The changes of a channel -/

/-- The accounts that the laws read are kept; the run of check failures may be broken. -/
structure Link.Keeps (l m : Link) : Prop where
  state    : m.state = l.state
  credits  : m.outstanding = l.outstanding ∧ m.awaiting = l.awaiting
  attempts : m.attempts = l.attempts ∧ m.attemptTimer.isSome = l.attemptTimer.isSome
  failures : m.checkFailures ≤ l.checkFailures

/-- No request, hold or timeout is new. -/
structure Scrub.Keeps (c d : Scrub) : Prop where
  tags  : ∀ tag, c.tags.get tag = none → d.tags.get tag = none
  hold  : c.holdFlag = false → d.holdFlag = false
  run   : d.timeoutRun ≤ c.timeoutRun
  sound : c.Sound → d.Sound

/-- R110: a link as it enters SYNCING. -/
def Link.syncing (l : Link) : Link :=
  { l.dropCredits with state := .syncing, attempts := 1, attemptTimer := some Config.syncAttemptMs }

/-- R118: credits are granted in one CREDIT, and none for 0. -/
def Transmitter.grant (x : Transmitter) (n : Nat) : Transmitter := if n = 0 then x else x.sendCredit n

/-- R114, R120: a channel whose link fails. -/
def Lane.failed (a : Lane) : Lane :=
  { a with link := { a.link.dropCredits with state := .failed }, tx := a.tx.withdraw, scrub := a.scrub.abandon }

/-- R110, R113: a channel whose link enters SYNCING. -/
def Lane.entered (a : Lane) : Lane :=
  if a.link.state = .active then
    { a with link := a.link.syncing, tx := a.tx.withdraw.sendSync, scrub := a.scrub.abandon }
  else { a with link := a.link.syncing, tx := a.tx.sendSync }

/-- R121: a channel whose link goes DOWN. -/
def Lane.down (a : Lane) : Lane :=
  { a with
    link := { a.link.dropCredits with state := .down, attempts := 0, attemptTimer := none }
    tx := .cut
    scrub := a.scrub.abandon }

/-- R112: a channel whose link becomes ACTIVE by a SYNC. -/
def Lane.activated (a : Lane) (seq : BitVec 8) : Lane :=
  { a with
    link := { a.link.startCount seq a.queue.length with attempts := 0, attemptTimer := none, state := .active }
    tx := a.tx.grant (Config.queueSize - a.queue.length) }

/-- R119: a channel whose far end restarts the accounts. -/
def Lane.restarted (a : Lane) (seq : BitVec 8) : Lane :=
  let m := a.link.startCount seq a.queue.length
  { a with
    link := { m with counters := { m.counters with restarts := satInc m.counters.restarts } }
    tx := a.tx.withdraw.grant (Config.queueSize - a.queue.length)
    scrub := a.scrub.abandon }

/-- The link is ACTIVE, or a request is outstanding, which the law of the scrub contexts allows on no other link. -/
def Lane.Engaged (a : Lane) : Prop := a.link.state = .active ∨ ∃ tag q, a.scrub.tags.get tag = some q

/-- A change that an event makes to the parts of a channel. -/
inductive LaneMove : Lane → Lane → Prop
  | link (a : Lane) (l : Link) (h : a.link.Keeps l) : LaneMove a { a with link := l }
  | scrub (a : Lane) (c : Scrub) (h : a.scrub.Keeps c) : LaneMove a { a with scrub := c }
  | engage (a : Lane) (c : Scrub) (he : a.Engaged) (hs : a.scrub.Sound → c.Sound)
      (hr : c.timeoutRun = a.scrub.timeoutRun ∨ c.timeoutRun < 3) : LaneMove a { a with scrub := c }
  | transmit (a : Lane) (x : Transmitter) (hb : a.tx.Bounded → x.Bounded)
      (hd : a.link.state = .down → a.tx = .cut → x = .cut) : LaneMove a { a with tx := x }
  | join (a : Lane) (r : Report) (h : 1 ≤ a.link.outstanding) :
      LaneMove a { a with queue := a.queue ++ [r], link := { a.link with outstanding := a.link.outstanding - 1 } }
  | leave (a : Lane) (r : Report) (rest : List Report) (hq : a.queue = r :: rest) (hs : a.link.state ≠ .active) :
      LaneMove a { a with queue := rest }
  | owe (a : Lane) (r : Report) (rest : List Report) (hq : a.queue = r :: rest) (hs : a.link.state = .active)
      (hr : rest ≠ []) : LaneMove a { a with queue := rest, link := { a.link with awaiting := a.link.awaiting + 1 } }
  | repay (a : Lane) (r : Report) (rest : List Report) (hq : a.queue = r :: rest) (hs : a.link.state = .active) :
      LaneMove a { a with
        queue := rest
        link := { a.link with outstanding := a.link.outstanding + (a.link.awaiting + 1), awaiting := 0 }
        tx := a.tx.sendCredit (a.link.awaiting + 1) }
  | discard (a : Lane) (hs : a.link.state ≠ .active) : LaneMove a { a with queue := [] }
  | failure (a : Lane) (hs : a.link.state = .active) (h : a.link.checkFailures + 1 < 4) :
      LaneMove a { a with link := { a.link with checkFailures := a.link.checkFailures + 1 } }
  | fail (a : Lane) (he : a.Engaged) : LaneMove a a.failed
  | enter (a : Lane) : LaneMove a a.entered
  | down (a : Lane) : LaneMove a a.down
  | retry (a : Lane) (hs : a.link.state = .syncing) (h : a.link.attempts < 3) :
      LaneMove a { a with
        link := { a.link with attempts := a.link.attempts + 1, attemptTimer := some Config.syncAttemptMs }
        tx := a.tx.sendSync }
  | exhaust (a : Lane) (hs : a.link.state = .syncing) :
      LaneMove a { a with link := { a.link with state := .failed, attempts := 0, attemptTimer := none } }
  | activate (a : Lane) (seq : BitVec 8) (hs : a.link.state = .syncing) : LaneMove a (a.activated seq)
  | restart (a : Lane) (seq : BitVec 8) (hs : a.link.state = .active) : LaneMove a (a.restarted seq)
  | reset (a : Lane) : LaneMove a .held

/-- The changes that an event makes, one after another. -/
abbrev LaneMoves : Lane → Lane → Prop := Relation.ReflTransGen LaneMove

/-- A property that every change keeps is kept along all of them. -/
theorem LaneMoves.keeps {P : Lane → Prop} (move : ∀ {a b}, LaneMove a b → P a → P b) {a b : Lane} (h : LaneMoves a b)
    (ha : P a) : P b := by
  induction h with
  | refl => exact ha
  | tail _ hm ih => exact move hm ih

/-! ### The credit law along the changes -/

section
variable {a b : Lane}

theorem Lane.CreditLaw.sum (law : a.CreditLaw) (h : a.link.state = .active) :
    a.queue.length + a.link.outstanding + a.link.awaiting = 6 ∧ (a.queue = [] → a.link.awaiting = 0) := by
  simpa only [h, if_true] using law.2

theorem Lane.CreditLaw.none (law : a.CreditLaw) (h : a.link.state ≠ .active) :
    a.link.outstanding = 0 ∧ a.link.awaiting = 0 := by
  simpa only [h, if_false] using law.2

theorem Lane.CreditLaw.of_sum (h : a.link.state = .active)
    (sum : a.queue.length + a.link.outstanding + a.link.awaiting = 6) (empty : a.queue = [] → a.link.awaiting = 0) :
    a.CreditLaw := ⟨by omega, by simpa only [h, if_true] using ⟨sum, empty⟩⟩

theorem Lane.CreditLaw.of_none (h : a.link.state ≠ .active) (room : a.queue.length ≤ 6) (outstanding : a.link.outstanding = 0)
    (awaiting : a.link.awaiting = 0) : a.CreditLaw := ⟨room, by simpa only [h, if_false] using ⟨outstanding, awaiting⟩⟩

theorem Lane.held_creditLaw : Lane.held.CreditLaw := .of_none (nofun : LinkState.down ≠ .active) (Nat.zero_le 6) rfl rfl

theorem LaneMove.creditLaw (h : LaneMove a b) (law : a.CreditLaw) : b.CreditLaw := by
  have room : a.queue.length ≤ 6 := law.1
  cases h with
  | link l h =>
    obtain ⟨outstanding, awaiting⟩ := h.credits
    simpa only [Lane.CreditLaw, h.state, outstanding, awaiting] using law
  | scrub | engage | transmit | failure => exact law
  | join r h =>
    by_cases hs : a.link.state = .active
    · refine .of_sum hs ?_ fun hq => absurd hq (by simp)
      have sum := (law.sum hs).1
      simp only [List.length_append, List.length_singleton]
      omega
    · have credits := law.none hs
      omega
  | leave r rest hq hs =>
    obtain ⟨outstanding, awaiting⟩ := law.none hs
    rw [hq, List.length_cons] at room
    exact .of_none hs (Nat.le_of_succ_le room) outstanding awaiting
  | owe r rest hq hs hr =>
    have sum := (law.sum hs).1
    rw [hq, List.length_cons] at sum
    refine .of_sum hs ?_ fun hn => absurd hn hr
    dsimp only
    omega
  | repay r rest hq hs =>
    have sum := (law.sum hs).1
    rw [hq, List.length_cons] at sum
    refine .of_sum hs ?_ fun _ => rfl
    dsimp only
    omega
  | discard hs =>
    obtain ⟨outstanding, awaiting⟩ := law.none hs
    exact .of_none hs (Nat.zero_le 6) outstanding awaiting
  | fail => exact .of_none (nofun : LinkState.failed ≠ .active) room rfl rfl
  | down => exact .of_none (nofun : LinkState.down ≠ .active) room rfl rfl
  | enter =>
    unfold Lane.entered
    split <;> exact .of_none (nofun : LinkState.syncing ≠ .active) room rfl rfl
  | retry hs =>
    have inactive : a.link.state ≠ .active := by simp [hs]
    obtain ⟨outstanding, awaiting⟩ := law.none inactive
    exact .of_none inactive room outstanding awaiting
  | exhaust hs =>
    obtain ⟨outstanding, awaiting⟩ := law.none (by simp [hs])
    exact .of_none (nofun : LinkState.failed ≠ .active) room outstanding awaiting
  | activate seq hs =>
    refine .of_sum rfl ?_ fun _ => rfl
    simp only [Lane.activated, Link.startCount, Config.queueSize]
    omega
  | restart seq hs =>
    refine .of_sum hs ?_ fun _ => rfl
    simp only [Lane.restarted, Link.startCount, Config.queueSize]
    omega
  | reset => exact Lane.held_creditLaw

end

/-! ### The laws of the link and of the scrub context along the changes -/

section
variable {a b : Lane}

theorem Scrub.Quiet.of_keeps {c d : Scrub} (quiet : c.Quiet) (h : c.Keeps d) : d.Quiet := by
  obtain ⟨tags, hold, run⟩ := quiet
  exact ⟨fun tag => h.tags tag (tags tag), h.hold hold, Nat.le_zero.mp (run ▸ h.run)⟩

/-- R141: an abandoned context holds nothing. -/
theorem Scrub.abandon_quiet (c : Scrub) : c.abandon.Quiet := by
  rw [Scrub.abandon_eq]
  exact ⟨fun tag => Table.get_map _ _ tag, rfl, rfl⟩

/-- R141: with the hold its patrol states and its ceiling end. -/
theorem Scrub.Sound.abandon {c : Scrub} (sound : c.Sound) : c.abandon.Sound := by
  obtain ⟨patrol, running, ceiling⟩ := sound
  rw [Scrub.abandon_eq]
  refine ⟨fun h => ?_, fun _ => rfl, fun _ => ?_⟩
  · cases hf : c.holdFlag <;> simp_all
    split at h <;> simp_all
  · cases hf : c.holdFlag <;> simp_all

/-- A context that holds nothing meets the law on every link. -/
theorem Lane.ScrubLaw.of_quiet (quiet : a.scrub.Quiet) (sound : a.scrub.Sound) : a.ScrubLaw :=
  ⟨fun _ => quiet, sound, by rw [quiet.2.2]; decide⟩

theorem Lane.ScrubLaw.active (law : a.ScrubLaw) (he : a.Engaged) : a.link.state = .active := by
  rcases he with h | ⟨tag, q, hq⟩
  · exact h
  · by_contra h
    have idle := (law.1 h).1 tag
    simp [hq] at idle

theorem Link.Law.of_keeps {l m : Link} (law : l.Law) (h : l.Keeps m) : m.Law := by
  obtain ⟨attempts, timer⟩ := h.attempts
  obtain ⟨sync, below, run⟩ := law
  have failures := h.failures
  refine ⟨?_, by omega, fun hs => ?_⟩
  · rw [h.state, attempts, timer, ← Option.isNone_iff_eq_none, ← Option.not_isSome, timer, Option.not_isSome,
      Option.isNone_iff_eq_none]
    exact sync
  · have := run (h.state ▸ hs)
    omega

theorem Link.Law.attempts_zero {l : Link} (law : l.Law) (h : l.state ≠ .syncing) : l.attempts = 0 ∧ l.attemptTimer = none := by
  simpa only [h, if_false] using law.1

/-- R107, R114: outside SYNCING a link has no attempt, and outside ACTIVE no run of check failures. -/
theorem Link.Law.of_idle {l : Link} (hs : l.state ≠ .syncing) (attempts : l.attempts = 0 ∧ l.attemptTimer = none)
    (failures : l.checkFailures = 0) : l.Law :=
  ⟨by simpa only [hs, if_false] using attempts, by omega, fun _ => failures⟩

theorem Link.syncing_law (l : Link) : l.syncing.Law :=
  ⟨by simp [Link.syncing], Nat.zero_lt_succ 3, fun _ => rfl⟩

theorem Link.held_law : Link.held.Law := .of_idle nofun ⟨rfl, rfl⟩ rfl

theorem LaneMove.linkLaw (h : LaneMove a b) (law : a.link.Law) (scrub : a.ScrubLaw) : b.link.Law := by
  cases h with
  | link l h => exact law.of_keeps h
  | scrub | engage | transmit | leave | discard => exact law
  | join | owe | repay => exact law
  | failure hs h =>
    obtain ⟨sync, -, -⟩ := law
    exact ⟨sync, h, fun hn => absurd hs hn⟩
  | fail he => exact .of_idle nofun (law.attempts_zero (by simp [scrub.active he])) rfl
  | enter =>
    unfold Lane.entered
    split <;> exact a.link.syncing_law
  | down => exact .of_idle nofun ⟨rfl, rfl⟩ rfl
  | retry hs h =>
    obtain ⟨-, below, run⟩ := law
    exact ⟨by simp [hs]; omega, below, run⟩
  | exhaust hs => exact .of_idle nofun ⟨rfl, rfl⟩ (law.2.2 (by simp [hs]))
  | activate => exact .of_idle nofun ⟨rfl, rfl⟩ rfl
  | restart seq hs =>
    have active : (a.restarted seq).link.state ≠ .syncing := by simp [Lane.restarted, Link.startCount, hs]
    exact .of_idle active (law.attempts_zero (by simp [hs])) rfl
  | reset => exact Link.held_law

theorem Lane.held_scrubLaw : Lane.held.ScrubLaw :=
  .of_quiet ⟨fun _ => Table.get_fill _ _, rfl, rfl⟩ ⟨nofun, fun _ => rfl, fun _ => rfl⟩

theorem LaneMove.scrubLaw (h : LaneMove a b) (law : a.ScrubLaw) : b.ScrubLaw := by
  obtain ⟨quiet, sound, run⟩ := law
  cases h with
  | link l h => exact ⟨fun hs => quiet (h.state ▸ hs), sound, run⟩
  | scrub c h => exact ⟨fun hs => (quiet hs).of_keeps h, h.sound sound, h.run.trans_lt run⟩
  | engage c he hs hr =>
    refine ⟨fun hn => absurd (Lane.ScrubLaw.active ⟨quiet, sound, run⟩ he) hn, hs sound, ?_⟩
    dsimp only
    omega
  | transmit | join | leave | owe | repay | discard | failure => exact ⟨quiet, sound, run⟩
  | fail | down | restart => exact .of_quiet a.scrub.abandon_quiet sound.abandon
  | enter =>
    unfold Lane.entered
    split
    · exact .of_quiet a.scrub.abandon_quiet sound.abandon
    · exact .of_quiet (quiet ‹_›) sound
  | retry hs => exact ⟨quiet, sound, run⟩
  | exhaust hs => exact .of_quiet (quiet (by simp [hs])) sound
  | activate seq hs => exact .of_quiet (quiet (by simp [hs])) sound
  | reset => exact Lane.held_scrubLaw

end

/-! ### The law of the transmitters along the changes -/

section
variable {x y : Transmitter}

/-- Frames that are withdrawn, or handed on, leave the bounds. -/
theorem Transmitter.Bounded.sublist (bounded : x.Bounded) (h : y.waiting.Sublist x.waiting) : y.Bounded := by
  obtain ⟨credit, sync, request⟩ := bounded
  exact ⟨h.countP_le.trans credit, h.countP_le.trans sync, fun tag => h.countP_le.trans (request tag)⟩

theorem Transmitter.Bounded.withdraw (bounded : x.Bounded) : x.withdraw.Bounded := bounded.sublist List.filter_sublist

theorem Transmitter.Bounded.withdrawRequest (bounded : x.Bounded) (tag : Tag) : (x.withdrawRequest tag).Bounded :=
  bounded.sublist List.filter_sublist

theorem Transmitter.Bounded.begin (bounded : x.Bounded) : x.begin.Bounded := by
  unfold Transmitter.begin
  split
  · next f rest _ hw => exact bounded.sublist (hw ▸ List.sublist_cons_self f rest)
  · exact bounded

/-- A frame at the end of the order is counted where it satisfies the test. -/
theorem countP_concat_le {p : DownFrame → Bool} {fs : List DownFrame} {f : DownFrame} (h : fs.countP p ≤ 1)
    (hf : p f = true → fs.countP p = 0) : (fs ++ [f]).countP p ≤ 1 := by
  rw [List.countP_append, List.countP_singleton]
  split
  · rw [hf ‹_›]
  · exact h

theorem Transmitter.Bounded.sendSync (bounded : x.Bounded) : x.sendSync.Bounded := by
  obtain ⟨credit, sync, request⟩ := bounded.sublist (y := ⟨x.waiting.filter (fun f => !f.isSync), none⟩) List.filter_sublist
  refine ⟨countP_concat_le credit nofun, countP_concat_le sync fun _ => ?_, fun tag => countP_concat_le (request tag) nofun⟩
  simp [List.countP_filter]

theorem Transmitter.Bounded.sendRequest (bounded : x.Bounded) (tag : Tag) (number : BitVec 8) (kind : RequestKind) (rank : Rank)
    (bank : Bank) (row : Row) : (x.sendRequest tag number kind rank bank row).Bounded := by
  obtain ⟨credit, sync, request⟩ :=
    bounded.sublist (y := ⟨x.waiting.filter (fun f => !f.isRequestOf tag), none⟩) List.filter_sublist
  refine ⟨countP_concat_le credit nofun, countP_concat_le sync nofun, fun u => countP_concat_le (request u) fun hu => ?_⟩
  obtain rfl : tag = u := by simpa [DownFrame.isRequestOf] using hu
  simp [List.countP_filter]

/-- R104: a count added to a CREDIT leaves every frame of its kind. -/
theorem DownFrame.addCredit_kind (n : Nat) : DownFrame.isCredit ∘ DownFrame.addCredit n = DownFrame.isCredit ∧
    DownFrame.isSync ∘ DownFrame.addCredit n = DownFrame.isSync ∧
    ∀ tag, DownFrame.isRequestOf tag ∘ DownFrame.addCredit n = DownFrame.isRequestOf tag := by
  refine ⟨funext fun f => ?_, funext fun f => ?_, fun tag => funext fun f => ?_⟩
  all_goals cases f <;> rfl

theorem Transmitter.Bounded.sendCredit (bounded : x.Bounded) (n : Nat) : (x.sendCredit n).Bounded := by
  obtain ⟨credit, sync, request⟩ := bounded
  unfold Transmitter.sendCredit
  split
  · obtain ⟨hc, hs, hr⟩ := DownFrame.addCredit_kind n
    refine ⟨?_, ?_, fun tag => ?_⟩
    · simpa only [List.countP_map, hc] using credit
    · simpa only [List.countP_map, hs] using sync
    · simpa only [List.countP_map, hr] using request tag
  · next none =>
    refine ⟨countP_concat_le credit fun _ => ?_, countP_concat_le sync nofun, fun tag => countP_concat_le (request tag) nofun⟩
    simpa using none

theorem Transmitter.Bounded.grant (bounded : x.Bounded) (n : Nat) : (x.grant n).Bounded := by
  unfold Transmitter.grant
  split
  · exact bounded
  · exact bounded.sendCredit n

theorem Transmitter.cut_bounded : Transmitter.cut.Bounded := ⟨Nat.zero_le 1, Nat.zero_le 1, fun _ => Nat.zero_le 1⟩

theorem Lane.held_transmitterLaw : Lane.held.TransmitterLaw := ⟨Transmitter.cut_bounded, fun _ => rfl⟩

theorem LaneMove.transmitterLaw {a b : Lane} (h : LaneMove a b) (law : a.TransmitterLaw) : b.TransmitterLaw := by
  obtain ⟨bounded, down⟩ := law
  cases h with
  | link l h => exact ⟨bounded, fun hd => down (h.state ▸ hd)⟩
  | scrub | engage | join | leave | owe | discard | failure => exact ⟨bounded, down⟩
  | transmit x hb hd => exact ⟨hb bounded, fun h => hd h (down h)⟩
  | repay r rest hq hs =>
    exact ⟨bounded.sendCredit _, fun h => absurd (hs.symm.trans h) nofun⟩
  | fail => exact ⟨bounded.withdraw, nofun⟩
  | enter =>
    unfold Lane.entered
    split
    · exact ⟨bounded.withdraw.sendSync, nofun⟩
    · exact ⟨bounded.sendSync, nofun⟩
  | down => exact ⟨Transmitter.cut_bounded, fun _ => rfl⟩
  | retry hs => exact ⟨bounded.sendSync, fun h => absurd (hs.symm.trans h) nofun⟩
  | exhaust => exact ⟨bounded, nofun⟩
  | activate => exact ⟨bounded.grant _, nofun⟩
  | restart seq hs => exact ⟨bounded.withdraw.grant _, fun h => absurd (hs.symm.trans h) nofun⟩
  | reset => exact Lane.held_transmitterLaw

end

end Sys2Proof.Machine

/-! The changes that each operation of the blocks makes to the parts of the channels. -/

namespace Sys2Proof.Machine

/-- From one state to another every channel makes changes alone. -/
def Lanes (s t : State) : Prop := ∀ ch, LaneMoves (s.lane ch) (t.lane ch)

theorem Lanes.refl (s : State) : Lanes s s := fun _ => .refl

theorem Lanes.trans {s t u : State} (h : Lanes s t) (k : Lanes t u) : Lanes s u := fun ch => (h ch).trans (k ch)

theorem Lanes.of_eq {s t : State} (h : ∀ ch, t.lane ch = s.lane ch) : Lanes s t := fun ch => by rw [h ch]

/-- The changes of one channel, with the others as they were. -/
theorem Lanes.of_lane {s t : State} (ch : Chan) (h : LaneMoves (s.lane ch) (t.lane ch))
    (others : ∀ c, c ≠ ch → t.lane c = s.lane c) : Lanes s t := fun c => by
  by_cases hc : c = ch
  · exact hc ▸ h
  · rw [others c hc]

theorem TablesOnly.lane {s t : State} (h : TablesOnly s t) (ch : Chan) : t.lane ch = s.lane ch := by
  rw [State.lane, State.lane, h.queues, h.link, h.txs, h.scrub]

theorem TablesOnly.lanes {s t : State} (h : TablesOnly s t) : Lanes s t := .of_eq h.lane

/-! ### Updates of one channel -/

section
variable (s : State) (ch : Chan)

theorem State.lane_modLink (f : Link → Link) (c : Chan) :
    (s.modLink ch f).lane c = if c = ch then { s.lane ch with link := f (s.lane ch).link } else s.lane c := by
  have same : (s.modLink ch f).scrub c = s.scrub c := rfl
  by_cases h : c = ch
  · subst h; simp [State.lane, same]
  · simp [State.lane, same, h]

theorem State.lane_modTx (f : Transmitter → Transmitter) (c : Chan) :
    (s.modTx ch f).lane c = if c = ch then { s.lane ch with tx := f (s.lane ch).tx } else s.lane c := by
  have same : (s.modTx ch f).link c = s.link c ∧ (s.modTx ch f).scrub c = s.scrub c := ⟨rfl, rfl⟩
  by_cases h : c = ch
  · subst h; simp [State.lane, State.txs_modTx, same]
  · simp [State.lane, State.txs_modTx, same, h]

theorem State.lane_modScrub (f : Scrub → Scrub) (c : Chan) :
    (s.modScrub ch f).lane c = if c = ch then { s.lane ch with scrub := f (s.lane ch).scrub } else s.lane c := by
  have same : (s.modScrub ch f).link c = s.link c := rfl
  by_cases h : c = ch
  · subst h; simp [State.lane, same]
  · simp [State.lane, same, h]

theorem State.lane_setQueues (t : Table (List Report) 8) (c : Chan) :
    (s.setQueues t).lane c = { s.lane c with queue := t.get c } := rfl

theorem Lanes.setFlag {s t : State} (h : Lanes s t) (f : EventFlag) : Lanes s (t.setFlag f) := h

theorem State.modLink_lanes {f : Link → Link} (h : (s.link ch).Keeps (f (s.link ch))) : Lanes s (s.modLink ch f) := by
  refine .of_lane ch ?_ fun c hc => by rw [State.lane_modLink, if_neg hc]
  rw [State.lane_modLink, if_pos rfl]
  exact .single (.link (s.lane ch) _ h)

theorem State.modScrub_lanes {f : Scrub → Scrub} (h : (s.scrub ch).Keeps (f (s.scrub ch))) : Lanes s (s.modScrub ch f) := by
  refine .of_lane ch ?_ fun c hc => by rw [State.lane_modScrub, if_neg hc]
  rw [State.lane_modScrub, if_pos rfl]
  exact .single (.scrub (s.lane ch) _ h)

theorem State.engage_lanes {f : Scrub → Scrub} (he : (s.lane ch).Engaged) (hs : (s.scrub ch).Sound → (f (s.scrub ch)).Sound)
    (hr : (f (s.scrub ch)).timeoutRun = (s.scrub ch).timeoutRun ∨ (f (s.scrub ch)).timeoutRun < 3) :
    Lanes s (s.modScrub ch f) := by
  refine .of_lane ch ?_ fun c hc => by rw [State.lane_modScrub, if_neg hc]
  rw [State.lane_modScrub, if_pos rfl]
  exact .single (.engage (s.lane ch) _ he hs hr)

theorem State.modTx_lanes {f : Transmitter → Transmitter} (hb : (s.txs.get ch).Bounded → (f (s.txs.get ch)).Bounded)
    (hd : (s.link ch).state = .down → s.txs.get ch = .cut → f (s.txs.get ch) = .cut) : Lanes s (s.modTx ch f) := by
  refine .of_lane ch ?_ fun c hc => by rw [State.lane_modTx, if_neg hc]
  rw [State.lane_modTx, if_pos rfl]
  exact .single (.transmit (s.lane ch) _ hb hd)

end

/-! ### What keeps the accounts of a link and what begins nothing in a scrub context -/

theorem Link.Keeps.refl (l : Link) : l.Keeps l := ⟨rfl, ⟨rfl, rfl⟩, ⟨rfl, rfl⟩, le_rfl⟩

/-- New values for what no law reads. -/
theorem Link.Keeps.books (l : Link) (expected : BitVec 8) (geometry : Geometry) (counters : LinkCounters) :
    l.Keeps { l with expected := expected, geometry := geometry, counters := counters } :=
  ⟨rfl, ⟨rfl, rfl⟩, ⟨rfl, rfl⟩, le_rfl⟩

theorem Link.lowerMs_keeps (l : Link) : l.Keeps l.lowerMs :=
  ⟨rfl, ⟨rfl, rfl⟩, ⟨rfl, Option.isSome_map⟩, le_rfl⟩

theorem Scrub.Keeps.refl (c : Scrub) : c.Keeps c := ⟨fun _ => id, id, le_rfl, id⟩

theorem Scrub.Keeps.trans {c d e : Scrub} (h : c.Keeps d) (k : d.Keeps e) : c.Keeps e :=
  ⟨fun tag ht => k.tags tag (h.tags tag ht), fun hh => k.hold (h.hold hh), k.run.trans h.run, fun hs => k.sound (h.sound hs)⟩

/-- R127: new values for what no law of the scrub contexts reads. -/
structure Scrub.SameWork (c d : Scrub) : Prop where
  tags    : d.tags = c.tags
  hold    : d.holdFlag = c.holdFlag
  run     : d.timeoutRun = c.timeoutRun
  patrol  : d.patrol = c.patrol
  ceiling : d.ceilingTimer = c.ceilingTimer

theorem Scrub.SameWork.sound_iff {c d : Scrub} (h : c.SameWork d) : d.Sound ↔ c.Sound := by
  simp only [Scrub.Sound, h.patrol, h.hold, h.ceiling]

theorem Scrub.SameWork.keeps {c d : Scrub} (h : c.SameWork d) : c.Keeps d :=
  ⟨fun _ ht => h.tags ▸ ht, fun hh => h.hold ▸ hh, h.run.le, h.sound_iff.mpr⟩

theorem Scrub.fitCursor_keeps (c : Scrub) (g : Geometry) : c.Keeps (c.fitCursor g) := by
  unfold Scrub.fitCursor
  split
  · exact .refl c
  · exact Scrub.SameWork.keeps ⟨rfl, rfl, rfl, rfl, rfl⟩

theorem Scrub.lowerPacing_keeps (c : Scrub) : c.Keeps c.lowerPacing := Scrub.SameWork.keeps ⟨rfl, rfl, rfl, rfl, rfl⟩

theorem Scrub.lowerMs_keeps (c : Scrub) : c.Keeps c.lowerMs where
  tags _ h := by simp [Scrub.lowerMs, h]
  hold := id
  run := le_rfl
  sound := fun ⟨patrol, running, ceiling⟩ =>
    ⟨patrol, running, fun h => by simp only [Scrub.lowerMs, Timer.lower, ceiling h, Option.map_none]⟩

theorem Scrub.stop_keeps (c : Scrub) : c.Keeps c.stop :=
  ⟨fun _ => id, id, le_rfl, fun ⟨_, _, ceiling⟩ => ⟨nofun, nofun, ceiling⟩⟩

/-- R139: a DRAINING patrol that becomes HELD is under the same hold. -/
theorem Scrub.hold_draining_keeps {c : Scrub} (h : c.patrol = .draining) : c.Keeps { c with patrol := .held } :=
  ⟨fun _ => id, id, le_rfl, fun ⟨patrol, _, ceiling⟩ => ⟨fun _ => patrol (.inl h), nofun, ceiling⟩⟩

theorem Scrub.segmentTest_keeps (c : Scrub) : c.Keeps c.segmentTest := by
  unfold Scrub.segmentTest
  split
  · next h => exact Scrub.hold_draining_keeps h.1
  · exact .refl c

theorem Scrub.release_keeps (c : Scrub) : c.Keeps c.release where
  tags _ := id
  hold _ := rfl
  run := le_rfl
  sound := fun ⟨_, _, _⟩ => by
    refine ⟨fun h => ?_, fun _ => rfl, fun _ => rfl⟩
    simp only [Scrub.release] at h
    split at h <;> simp_all

theorem Scrub.takeResume_keeps (c : Scrub) : c.Keeps c.takeResume := by
  unfold Scrub.takeResume
  split
  · exact c.release_keeps
  · exact .refl c

theorem Scrub.freeTags_keeps (c : Scrub) : c.Keeps c.freeTags :=
  ⟨fun tag _ => Table.get_map _ _ tag, id, Nat.zero_le _, id⟩

theorem Scrub.softReset_keeps (c : Scrub) : c.Keeps c.softReset := c.freeTags_keeps.trans c.freeTags.release_keeps

/-- R97: a tag that is freed by a reply. -/
theorem Scrub.freeTag_keeps (c : Scrub) (tag : Tag) : c.Keeps { c with tags := c.tags.set tag none, timeoutRun := 0 } :=
  ⟨fun u hu => by simp only [Table.get_set, hu, ite_self], id, Nat.zero_le _, id⟩

/-- R143: a patrol that starts is HELD under a hold and RUNNING without one. -/
theorem Scrub.start_keeps (c : Scrub) (m : PatrolMode) :
    c.Keeps { c with mode := m, stepDue := true, patrol := if c.holdFlag then .held else .running } where
  tags _ := id
  hold := id
  run := le_rfl
  sound := fun ⟨_, _, ceiling⟩ => by
    refine ⟨fun h => ?_, fun h => ?_, ceiling⟩ <;> cases hf : c.holdFlag <;> simp_all

theorem Scrub.setHoldPolicy_keeps (c : Scrub) (p : HoldPolicy) (segment ceiling : Nat) :
    c.Keeps (c.setHoldPolicy p segment ceiling) := by
  have set : c.Keeps { c with holdPolicy := p, segment := segment, ceiling := ceiling } :=
    Scrub.SameWork.keeps ⟨rfl, rfl, rfl, rfl, rfl⟩
  unfold Scrub.setHoldPolicy
  cases p with
  | segment => exact set.trans (Scrub.segmentTest_keeps _)
  | immediate =>
    dsimp only
    split
    · next h => exact set.trans (Scrub.hold_draining_keeps h)
    · exact set

theorem Scrub.step_keeps (c : Scrub) (g : Geometry) : c.Keeps (c.step g) := by
  unfold Scrub.step
  dsimp only
  refine Scrub.Keeps.trans ?_ (Scrub.segmentTest_keeps _)
  split
  · refine Scrub.Keeps.trans ?_ (Scrub.stop_keeps _)
    split <;> exact Scrub.SameWork.keeps ⟨rfl, rfl, rfl, rfl, rfl⟩
  · split <;> exact Scrub.SameWork.keeps ⟨rfl, rfl, rfl, rfl, rfl⟩

/-- R138, R139: under a new hold a RUNNING patrol is HELD or DRAINING. -/
theorem Scrub.takeHold_sound {c : Scrub} (sound : c.Sound) : c.takeHold.Sound := by
  unfold Scrub.takeHold
  split
  · exact sound
  · dsimp only
    split
    · split
      · exact ⟨fun _ => rfl, nofun, nofun⟩
      · exact (Scrub.segmentTest_keeps _).sound ⟨fun _ => rfl, nofun, nofun⟩
    · next h => exact ⟨fun _ => rfl, fun h' => absurd h' h, nofun⟩

theorem Scrub.takeHold_run (c : Scrub) : c.takeHold.timeoutRun = c.timeoutRun := by
  unfold Scrub.takeHold Scrub.segmentTest
  split
  · rfl
  · dsimp only
    split
    · split
      · rfl
      · split <;> rfl
    · rfl

/-! ### The links and the transmitters (R104 to R122) -/

section
variable (s : State) (ch : Chan)

theorem State.modCounters_lanes (f : LinkCounters → LinkCounters) : Lanes s (s.modCounters ch f) :=
  s.modLink_lanes ch (.books _ _ _ _)

theorem State.lane_sendCredit (n : Nat) (c : Chan) :
    (s.sendCredit ch n).lane c = if c = ch then { s.lane ch with tx := (s.lane ch).tx.grant n } else s.lane c := by
  unfold State.sendCredit Transmitter.grant
  split
  · split
    · next hc => rw [hc]
    · rfl
  · rw [State.lane_modTx]

theorem State.lane_setLinkState (st : LinkState) (c : Chan) : (s.setLinkState ch st).lane c =
    if c = ch then { s.lane ch with link := { (s.lane ch).link with state := st } } else s.lane c :=
  State.lane_modLink s ch _ c

theorem State.lane_abandonRequests (r : Option ReadResult) (c : Chan) : (s.abandonRequests ch r).lane c =
    if c = ch then { s.lane ch with scrub := (s.lane ch).scrub.abandon } else s.lane c := by
  rw [(s.abandonRequests_tables ch r).lane, State.lane_modScrub]

theorem State.lane_abortRunningOn (c : Chan) : (s.abortRunningOn ch).lane c = s.lane c :=
  (s.abortRunningOn_tables ch).lane c

theorem State.lane_departActive (st : LinkState) (c : Chan) : (s.departActive ch st).lane c =
    if c = ch then { s.lane ch with
      link  := { (s.lane ch).link.dropCredits with state := st }
      tx    := (s.lane ch).tx.withdraw
      scrub := (s.lane ch).scrub.abandon } else s.lane c := by
  rw [(s.departActive_tables ch st).lane]
  simp only [State.left, State.lane_modScrub, State.lane_modTx, State.lane_modLink, State.lane_setLinkState, if_true]
  split <;> rfl

/-- R114, R120: the failure of a link. -/
theorem State.lane_failLink (c : Chan) : (s.failLink ch).lane c = if c = ch then (s.lane ch).failed else s.lane c :=
  s.lane_departActive ch .failed c

/-- R110: the entry to SYNCING. -/
theorem State.lane_enterSyncing (c : Chan) : (s.enterSyncing ch).lane c = if c = ch then (s.lane ch).entered else s.lane c := by
  unfold State.enterSyncing Lane.entered
  dsimp only
  by_cases ha : (s.link ch).state = .active
  · have active : s.linkActive ch = true := by simp [State.linkActive, ha]
    simp only [active, if_true, State.lane_modTx, State.lane_modLink, State.lane_departActive,
      show (s.lane ch).link.state = .active from ha]
    split <;> rfl
  · have inactive : s.linkActive ch = false := by simp [State.linkActive, ha]
    simp only [inactive, Bool.false_eq_true, if_false, State.lane_modTx, State.lane_modLink, State.lane_abortRunningOn,
      State.lane_setLinkState, show ¬(s.lane ch).link.state = .active from ha, if_true]
    split <;> rfl

/-- R121: the way DOWN. -/
theorem State.lane_goDown (c : Chan) : (s.goDown ch).lane c = if c = ch then (s.lane ch).down else s.lane c := by
  unfold State.goDown Lane.down
  simp only [State.lane_abortRunningOn, State.lane_abandonRequests, State.lane_modTx, State.lane_modLink,
    State.lane_setLinkState, if_true]
  split <;> rfl

/-- A change of a channel that an operation makes to it alone. -/
theorem Lanes.of_ite {s t : State} {ch : Chan} {b : Lane} (h : LaneMoves (s.lane ch) b)
    (ht : ∀ c, t.lane c = if c = ch then b else s.lane c) : Lanes s t :=
  .of_lane ch (by rw [ht, if_pos rfl]; exact h) fun c hc => by rw [ht, if_neg hc]

theorem State.enterSyncing_lanes : Lanes s (s.enterSyncing ch) :=
  .of_ite (.single (.enter (s.lane ch))) (s.lane_enterSyncing ch)

theorem State.goDown_lanes : Lanes s (s.goDown ch) := .of_ite (.single (.down (s.lane ch))) (s.lane_goDown ch)

theorem State.discardQueue_lanes (hs : (s.link ch).state ≠ .active) : Lanes s (s.discardQueue ch) := by
  have counted : (s.link ch).Keeps { s.link ch with
      counters := { (s.link ch).counters with discarded := satAdd (s.link ch).counters.discarded (s.queued ch) } } :=
    .books _ _ _ _
  refine .of_ite (.head (.discard (s.lane ch) hs) (.single (.link _ _ counted))) fun c => ?_
  simp only [State.discardQueue, State.lane_setQueues, State.modCounters, State.lane_modLink, Table.get_set]
  split <;> rfl

theorem State.attemptExpiry_lanes (hs : (s.link ch).state = .syncing) : Lanes s (s.attemptExpiry ch) := by
  unfold State.attemptExpiry
  split
  · next h =>
    refine .of_ite (.single (.retry (s.lane ch) hs h)) fun c => ?_
    simp only [State.lane_modTx, State.lane_modLink, if_true]
    split <;> rfl
  · refine .of_ite (.single (.exhaust (s.lane ch) hs)) fun c => ?_
    simp only [State.lane_modLink, State.lane_setLinkState, if_true]
    split <;> rfl

theorem State.lane_syncInSyncing (seq : BitVec 8) (c : Chan) :
    (s.syncInSyncing ch seq).lane c = if c = ch then (s.lane ch).activated seq else s.lane c := by
  simp only [State.syncInSyncing, State.lane_setLinkState, State.lane_sendCredit, State.lane_modLink, if_true]
  split <;> rfl

theorem State.lane_syncInActive (seq : BitVec 8) (c : Chan) :
    (s.syncInActive ch seq).lane c = if c = ch then (s.lane ch).restarted seq else s.lane c := by
  simp only [State.syncInActive, State.lane_sendCredit, State.lane_modLink, State.lane_abandonRequests, State.lane_modTx,
    if_true]
  split <;> rfl

theorem State.arriveSync_lanes (seq : BitVec 8) : Lanes s (s.arriveSync ch seq) := by
  unfold State.arriveSync
  split
  · exact .refl s
  · next hs =>
    exact .of_ite (.single (.activate (s.lane ch) seq hs)) (s.lane_syncInSyncing ch seq)
  · exact s.modCounters_lanes ch _
  · next hs =>
    exact .of_ite (.single (.restart (s.lane ch) seq hs)) (s.lane_syncInActive ch seq)

/-- R114: the run of check failures of an ACTIVE link. -/
theorem State.arriveFailing_lanes : Lanes s (s.arriveFailing ch) := by
  unfold State.arriveFailing
  dsimp only
  split
  · exact .refl s
  · exact s.modCounters_lanes ch _
  · exact s.modCounters_lanes ch _
  · next hs =>
    have counted : (s.link ch).Keeps { s.link ch with
        counters := { (s.link ch).counters with checkFailures := satInc (s.link ch).counters.checkFailures } } :=
      .books _ _ _ _
    split
    · refine .of_ite (.head (.link (s.lane ch) _ counted) (.single (.fail _ (.inl hs)))) fun c => ?_
      simp only [State.lane_failLink, State.modCounters, State.lane_modLink, if_true]
      split <;> rfl
    · next h =>
      have below : (s.link ch).checkFailures + 1 < 4 := Nat.lt_of_not_le h
      refine .of_ite (.head (.link (s.lane ch) _ counted) (.single (.failure _ hs below))) fun c => ?_
      simp only [State.modCounters, State.lane_modLink, if_true]
      split <;> rfl

theorem State.link_setFlag (f : EventFlag) (c : Chan) : (s.setFlag f).link c = s.link c := rfl

/-- R115: a frame changes the channels as what its kind does onward on an ACTIVE link changes them. -/
theorem State.arrive_lanes (seq : BitVec 8) {onward : State → State}
    (h : ∀ t, (t.link ch).state = .active → Lanes t (onward t)) : Lanes s (s.arrive ch seq onward) := by
  unfold State.arrive State.arriveActive
  split
  · exact .refl s
  · exact s.modCounters_lanes ch _
  · exact s.modCounters_lanes ch _
  · next hs =>
    have passed : Lanes s (s.modLink ch (fun l => { l with checkFailures := 0 })) :=
      s.modLink_lanes ch ⟨rfl, ⟨rfl, rfl⟩, ⟨rfl, rfl⟩, Nat.zero_le _⟩
    dsimp only
    split
    · refine (passed.trans (State.modLink_lanes _ ch (.books _ _ _ _))).trans (h _ ?_)
      simp [hs]
    · refine ((passed.trans (State.modLink_lanes _ ch (.books _ _ _ _))).trans
        (Lanes.setFlag (State.modCounters_lanes _ ch _) _)).trans (h _ ?_)
      simp [State.modCounters, State.link_setFlag, hs]
    · exact passed.trans (State.modCounters_lanes _ ch _)

theorem State.accept_lanes : Lanes s (s.accept ch) := s.modCounters_lanes ch _

theorem State.joinQueue_lanes (r : Report) : Lanes s (s.joinQueue ch r) := by
  unfold State.joinQueue
  split
  · next h =>
    refine .of_ite (.single (.join (s.lane ch) r h)) fun c => ?_
    simp only [State.lane_setQueues, State.lane_modLink, Table.get_modify]
    split <;> rfl
  · exact (s.modCounters_lanes ch _).setFlag .creditViolation

end

section
variable (s : State) (ch : Chan)

/-! ### The scrub engine (R129 to R145) -/

theorem State.countSkipped_lanes : Lanes s (s.countSkipped ch) :=
  s.modScrub_lanes ch (Scrub.SameWork.keeps ⟨rfl, rfl, rfl, rfl, rfl⟩)

theorem State.freeTag_lanes (tag : Tag) : Lanes s (s.freeTag ch tag) := s.modScrub_lanes ch (Scrub.freeTag_keeps _ tag)

theorem State.issueRequest_lanes (tag : Tag) (kind : RequestKind) (rank : Rank) (bank : Bank) (row : Row)
    (hs : (s.link ch).state = .active) : Lanes s (s.issueRequest ch tag kind rank bank row) :=
  (s.engage_lanes ch (.inl hs) id (.inl rfl)).trans
    (State.modTx_lanes _ ch (fun bounded => bounded.sendRequest tag _ kind rank bank row)
      fun hd => absurd (hs.symm.trans hd) nofun)

theorem State.patrolStep_lanes (tag : Tag) (hs : (s.link ch).state = .active) : Lanes s (s.patrolStep ch tag) := by
  unfold State.patrolStep
  dsimp only
  have step (t : State) (h : Lanes s t) : Lanes s (t.modScrub ch (fun c => c.step (s.geometry ch))) :=
    h.trans (t.modScrub_lanes ch (Scrub.step_keeps _ _))
  have visited : Lanes s (match s.lookup ch (s.scrub ch).cursor.rank (s.scrub ch).cursor.bank (s.scrub ch).cursor.row with
      | some _ => s.modScrub ch (fun c =>
        { c with counters := { c.counters with skippedRetired := satInc c.counters.skippedRetired } })
      | none => s.issueRequest ch tag .patrol (s.scrub ch).cursor.rank (s.scrub ch).cursor.bank (s.scrub ch).cursor.row) := by
    split
    · exact s.modScrub_lanes ch (Scrub.SameWork.keeps ⟨rfl, rfl, rfl, rfl, rfl⟩)
    · exact s.issueRequest_lanes ch tag _ _ _ _ hs
  split
  · exact (step _ visited).setFlag .scrubPassDone
  · exact step _ visited

theorem State.verifyStep_lanes (tag : Tag) (j : Job) (hs : (s.link ch).state = .active) : Lanes s (s.verifyStep ch tag j) := by
  unfold State.verifyStep
  split
  · exact .refl s
  · next l _ =>
    split
    · exact (s.abortJob_tables .retired j.cet).lanes
    · exact (s.issueRequest_lanes ch tag .verify l.rank l.bank l.row hs).trans
        ((State.setRecord_tables _ ch _).trans (State.setJobs_tables _ _)).lanes

theorem State.issue_lanes : Lanes s (s.issue ch) := by
  unfold State.issue
  split
  · next ha =>
    have hs : (s.link ch).state = .active := by simpa [State.linkActive] using ha
    split
    · exact .refl s
    · split
      · exact s.verifyStep_lanes ch _ _ hs
      · split
        · exact s.patrolStep_lanes ch _ hs
        · exact .refl s
  · exact .refl s

/-- R104: the withdrawal at a departure withdraws the request of every tag. -/
theorem Transmitter.withdraw_withdrawRequest (x : Transmitter) (tag : Tag) : (x.withdrawRequest tag).withdraw = x.withdraw := by
  simp only [Transmitter.withdraw, Transmitter.withdrawRequest, List.filter_filter]
  congr 2
  funext f
  cases f <;> simp [DownFrame.isSync, DownFrame.isRequestOf]

/-- R136: the scrub context of a channel after the expiry of a tag's reply timer. -/
def Scrub.timedOut (c : Scrub) (tag : Tag) : Scrub :=
  { c with
    tags       := c.tags.set tag none
    timeoutRun := c.timeoutRun + 1
    counters   := { c.counters with timeouts := satInc c.counters.timeouts } }

/-- R104, R136: the context and the transmitter of a channel have taken the expiry of a tag's reply timer. -/
def State.timedOut (s : State) (ch : Chan) (tag : Tag) : State :=
  (s.modScrub ch (fun c => c.timedOut tag)).modTx ch (fun t => t.withdrawRequest tag)

theorem State.lane_timedOut (tag : Tag) (c : Chan) : (s.timedOut ch tag).lane c =
    if c = ch then { s.lane ch with tx := (s.lane ch).tx.withdrawRequest tag, scrub := (s.lane ch).scrub.timedOut tag }
    else s.lane c := by
  simp only [State.timedOut, State.lane_modTx, State.lane_modScrub, if_true]
  split <;> rfl

/-- R136: the request whose timer has expired is given up by its kind. -/
def State.giveUp (s : State) (ch : Chan) (tag : Tag) (q : Request) : State :=
  match q.kind with
  | .patrol => s.countSkipped ch
  | .verify => s.endRead ch tag q.number (some .noAnswer)

theorem State.replyExpiry_eq (tag : Tag) (q : Request) : s.replyExpiry ch tag q =
    if Config.timeoutLimit ≤ (s.scrub ch).timeoutRun + 1 then ((s.timedOut ch tag).giveUp ch tag q).failLink ch
    else (s.timedOut ch tag).giveUp ch tag q := rfl

theorem State.giveUp_lanes (tag : Tag) (q : Request) : Lanes s (s.giveUp ch tag q) := by
  unfold State.giveUp
  split
  · exact s.countSkipped_lanes ch
  · exact (s.endRead_tables ch tag q.number _).lanes

/-- The scrub context of the channel alone counts what is given up. -/
theorem State.giveUp_lane (tag : Tag) (q : Request) : ∃ counters : ScrubCounters, ∀ c, (s.giveUp ch tag q).lane c =
    if c = ch then { s.lane ch with scrub := { (s.lane ch).scrub with counters := counters } } else s.lane c := by
  unfold State.giveUp
  split
  · exact ⟨_, s.lane_modScrub ch _⟩
  · refine ⟨(s.scrub ch).counters, fun c => ?_⟩
    rw [(s.endRead_tables ch tag q.number _).lane]
    split
    · next h => rw [h]; rfl
    · rfl

/-- R141: a channel abandons its requests all the same after a timeout that it counts. -/
theorem Lane.failed_timedOut (a : Lane) (tag : Tag) (counters : ScrubCounters) :
    Lane.failed { a with tx := a.tx.withdrawRequest tag, scrub := { a.scrub.timedOut tag with counters := counters } } =
      { a.failed with scrub := { a.failed.scrub with counters := counters } } := by
  simp only [Lane.failed, Transmitter.withdraw_withdrawRequest, Scrub.abandon_eq, Scrub.timedOut]
  congr 2
  exact Table.ext_get fun tag => by rw [Table.get_map, Table.get_map]

/-- R136, R137: the third timeout in a row fails the link. -/
theorem State.replyExpiry_lanes (tag : Tag) (q : Request) (hq : (s.scrub ch).tags.get tag = some q) :
    Lanes s (s.replyExpiry ch tag q) := by
  have engaged : (s.lane ch).Engaged := .inr ⟨tag, q, hq⟩
  rw [State.replyExpiry_eq]
  split
  · obtain ⟨counters, counted⟩ := (s.timedOut ch tag).giveUp_lane ch tag q
    have keeps : (s.lane ch).failed.scrub.Keeps { (s.lane ch).failed.scrub with counters := counters } :=
      Scrub.SameWork.keeps ⟨rfl, rfl, rfl, rfl, rfl⟩
    refine .of_ite (.head (.fail (s.lane ch) engaged) (.single (.scrub _ _ keeps))) fun c => ?_
    simp only [State.lane_failLink, counted, State.lane_timedOut, if_true, ← Lane.failed_timedOut _ tag]
    split <;> rfl
  · next h =>
    have below : (s.scrub ch).timeoutRun + 1 < 3 := Nat.lt_of_not_le h
    refine Lanes.trans ?_ ((s.timedOut ch tag).giveUp_lanes ch tag q)
    exact (s.engage_lanes ch engaged id (.inr below)).trans
      (State.modTx_lanes _ ch (fun bounded => bounded.withdrawRequest tag) fun _ hc => by
        show Transmitter.withdrawRequest (s.txs.get ch) tag = .cut
        rw [show s.txs.get ch = .cut from hc]; rfl)

theorem State.arriveHold_lanes (seq : BitVec 8) :
    Lanes s (s.arrive ch seq (fun t => (t.accept ch).modScrub ch Scrub.takeHold)) :=
  s.arrive_lanes ch seq fun t ht => (t.accept_lanes ch).trans
    (State.engage_lanes _ ch (.inl (by simp [State.lane, State.accept, State.modCounters, ht])) Scrub.takeHold_sound
      (.inl (Scrub.takeHold_run _)))

/-! ### The log, the classifier and the intake arbiter (R65 to R98) -/

theorem State.setFatal_lanes (x : FatalCause) : Lanes s (s.setFatal x) := .of_eq fun _ => by cases x <;> rfl

theorem State.appendUe_lanes (a : UeAppend) : Lanes s (s.appendUe a) := by
  unfold State.appendUe
  split
  · unfold State.ueProposal
    split
    · exact ((s.storeUe a).propose_tables _ _).lanes
    · exact .refl s
  · unfold State.loseUe
    dsimp only
    split
    · exact State.setFatal_lanes _ .overflow
    · exact .refl s

theorem State.routeCorrected_lanes (l : Loc) (cls : CeClass) (o : Origin) : Lanes s (s.routeCorrected l cls o) := by
  unfold State.routeCorrected
  split
  · exact (s.suppress_tables _).lanes
  · exact (s.takeCe_tables _).lanes

theorem State.classifyError_lanes (l : Loc) (cls : ErrClass) (o : Origin) : Lanes s (s.classifyError l cls o) := by
  unfold State.classifyError
  split
  · split
    · exact s.routeCorrected_lanes _ _ _
    · exact s.appendUe_lanes _
  · exact .refl s

theorem State.malformedReply_lanes (r : ScrubReply) (q : Request) : Lanes s (s.malformedReply ch r q) := by
  unfold State.malformedReply
  dsimp only
  split
  · exact (s.countMalformed ch).countSkipped_lanes ch
  · exact ((s.countMalformed ch).endRead_tables ch _ _ _).lanes

theorem State.patrolReply_lanes (r : ScrubReply) (q : Request) : Lanes s (s.patrolReply ch r q) := by
  unfold State.patrolReply
  split
  · exact .refl s
  · exact s.routeCorrected_lanes _ _ _
  · exact s.appendUe_lanes _
  · exact s.countSkipped_lanes ch

theorem State.verifyReply_lanes (r : ScrubReply) (q : Request) : Lanes s (s.verifyReply ch r q) := by
  have ended := (s.endRead_tables ch r.tag q.number (some r.result.counted)).lanes
  unfold State.verifyReply
  dsimp only
  split
  · exact ended.trans (State.appendUe_lanes _ _)
  · exact ended

theorem State.classifyReply_lanes (r : ScrubReply) : Lanes s (s.classifyReply ch r) := by
  unfold State.classifyReply
  split
  · exact .refl s
  · next q _ =>
    dsimp only
    refine (s.freeTag_lanes ch r.tag).trans ?_
    split
    · exact State.malformedReply_lanes _ ch r q
    · split
      · exact State.patrolReply_lanes _ ch r q
      · exact State.verifyReply_lanes _ ch r q

theorem State.classify_lanes (r : Report) : Lanes s (s.classify ch r) := by
  unfold State.classify
  split
  · exact s.classifyError_lanes _ _ _
  · exact s.classifyReply_lanes ch _

/-- R86, R118: the head report leaves the queue, and its credit awaits return or is returned with those that do. -/
theorem State.beheaded_returnCredit_lanes {r : Report} {rest : List Report} (hq : s.queues.get ch = r :: rest) :
    Lanes s ((s.beheaded ch).returnCredit ch) := by
  have head : (s.lane ch).queue = r :: rest := hq
  have queue : (s.beheaded ch).queues.get ch = rest := by simp [State.beheaded, hq]
  have lane (c : Chan) : (s.beheaded ch).lane c = if c = ch then { s.lane ch with queue := rest } else s.lane c := by
    rw [State.beheaded, State.lane_setQueues, Table.get_set, hq, List.tail_cons]
    split
    · next hc => rw [hc]; rfl
    · rfl
  by_cases hs : (s.link ch).state = .active
  · by_cases hb : s.batch ≤ (s.link ch).awaiting + 1 ∨ rest = []
    · rw [State.returnCredit_all (s := s.beheaded ch) hs (by rwa [queue])]
      refine .of_ite (.single (.repay (s.lane ch) r rest head hs)) fun c => ?_
      simp only [State.lane_modTx, State.lane_modLink, lane, if_true]
      split <;> rfl
    · obtain ⟨below, more⟩ := not_or.mp hb
      rw [State.returnCredit_one (s := s.beheaded ch) hs (Nat.lt_of_not_le below) (by rwa [queue])]
      refine .of_ite (.single (.owe (s.lane ch) r rest head hs more)) fun c => ?_
      simp only [State.lane_modLink, lane, if_true]
      split <;> rfl
  · rw [State.returnCredit_inactive (s := s.beheaded ch) hs]
    exact .of_ite (.single (.leave (s.lane ch) r rest head hs)) lane

theorem State.take_lanes : Lanes s s.take := by
  cases hc : s.choose with
  | none => rw [State.take_none hc]; exact .refl s
  | some x =>
    have held := State.nonEmpty_of_choose hc
    cases x with
    | channel ch =>
      obtain ⟨r, rest, hq⟩ := List.exists_cons_of_ne_nil (show s.queues.get ch ≠ [] by simpa [State.nonEmpty] using held)
      rw [State.take_channel hc hq]
      exact (s.beheaded_returnCredit_lanes ch hq).trans (State.classify_lanes _ ch r)
    | slot =>
      obtain ⟨r, hs⟩ := Option.isSome_iff_exists.mp held
      rw [State.take_slot hc hs]
      exact s.vacated.classifyError_lanes _ _ _

/-! ### The clock, the purge and the Soft reset (R11, R12, R60, R61, R176) -/

theorem State.lowerMs_lanes : Lanes s s.lowerMs := fun ch => by
  have lane : s.lowerMs.lane ch = { s.lane ch with link := (s.link ch).lowerMs, scrub := (s.scrub ch).lowerMs } := by
    simp [State.lowerMs, State.lane, State.link, State.scrub, State.setScrubs, State.setLinks, State.setUel, State.setCet]
  rw [lane]
  exact .head (.link (s.lane ch) _ (Link.lowerMs_keeps _)) (.single (.scrub _ _ (Scrub.lowerMs_keeps _)))

theorem State.lowerPacing_lanes : Lanes s (s.setScrubs (s.scrubs.map Scrub.lowerPacing)) := fun ch => by
  have lane : (s.setScrubs (s.scrubs.map Scrub.lowerPacing)).lane ch =
      { s.lane ch with scrub := (s.scrub ch).lowerPacing } := by
    simp [State.lane, State.scrub, State.setScrubs, State.link]
  rw [lane]
  exact .single (.scrub (s.lane ch) _ (Scrub.lowerPacing_keeps _))

theorem State.lane_complete (p : Port) (code : ResultCode) (result : Pages) (c : Chan) :
    (s.complete p code result).lane c = s.lane c := by cases p <;> rfl

theorem State.lane_latch (p : Port) (c : Chan) : (s.latch p).lane c = s.lane c := by cases p <;> rfl

theorem State.endPurge_lanes (g : Purge) (n : Nat) : Lanes s (s.endPurge g n) := by
  unfold State.endPurge
  dsimp only
  split
  · exact .of_eq (State.lane_complete _ _ _ _)
  · exact .refl s

theorem State.purgeStep_lanes (g : Purge) : Lanes s (s.purgeStep g) := by
  unfold State.purgeStep
  split
  · exact s.endPurge_lanes g _
  · next i _ =>
    have visited := (s.visit_tables g i).lanes
    dsimp only
    split
    · exact visited
    · exact visited.trans (State.endPurge_lanes _ g _)

/-- R126: a channel at the Soft reset, by the state of its link. -/
def Lane.resynced (a : Lane) : Lane := if a.link.state = .down then a else a.entered

theorem State.lane_resyncAtReset (c : Chan) :
    (s.resyncAtReset ch).lane c = if c = ch then (s.lane ch).resynced else s.lane c := by
  unfold State.resyncAtReset Lane.resynced
  by_cases h : (s.link ch).state = .down
  · simp only [h, if_true, show (s.lane ch).link.state = .down from h]
    split
    · next hc => rw [hc]
    · rfl
  · simp only [h, if_false, show ¬(s.lane ch).link.state = .down from h]
    exact s.lane_enterSyncing ch c

/-- R126: each of the channels enters SYNCING once, and no other is touched. -/
theorem lane_foldl_resyncAtReset {chs : List Chan} (hd : chs.Nodup) (s : State) (c : Chan) :
    (chs.foldl State.resyncAtReset s).lane c = if c ∈ chs then (s.lane c).resynced else s.lane c := by
  induction chs generalizing s with
  | nil => rfl
  | cons ch rest ih =>
    obtain ⟨fresh, hd⟩ := List.nodup_cons.mp hd
    rw [List.foldl_cons, ih hd, State.lane_resyncAtReset]
    by_cases hc : c = ch
    · subst hc
      simp [fresh]
    · simp [hc]

/-- R176: what a channel is at a Soft reset before its link acts. -/
def Lane.emptied (a : Lane) : Lane := { a with queue := [], scrub := a.scrub.softReset }

theorem State.lane_softReset (c : Chan) : s.softReset.lane c = (s.lane c).emptied.resynced := by
  unfold State.softReset
  dsimp only
  rw [lane_foldl_resyncAtReset (List.nodup_finRange 8), if_pos (List.mem_finRange c)]
  congr 1
  have queues : (s.emptyIntake.emptyVerify).queues = s.queues.map (fun _ => []) := rfl
  have links : (s.emptyIntake.emptyVerify).links = s.links := rfl
  have txs : (s.emptyIntake.emptyVerify).txs = s.txs := rfl
  have scrubs : (s.emptyIntake.emptyVerify).scrubs = s.scrubs := rfl
  simp [State.lane, State.link, State.scrub, Lane.emptied, State.setScrubs, queues, links, txs, scrubs]

theorem Scrub.freeTags_freeTags (c : Scrub) : c.freeTags.freeTags = c.freeTags := by
  unfold Scrub.freeTags
  congr 1
  exact Table.ext_get fun tag => by rw [Table.get_map, Table.get_map]

theorem Scrub.release_release (c : Scrub) : c.release.release = c.release := by
  obtain ⟨patrol, -, -, -, -, -, -, -, -, -, -, -, -, -, -, -, -⟩ := c
  cases patrol <;> rfl

/-- R141, R146: the order of an abandonment and a Soft reset of a context does not matter. -/
theorem Scrub.softReset_abandon (c : Scrub) : c.softReset.abandon = c.abandon.softReset := by
  have once : c.softReset.abandon = c.softReset := congrArg Scrub.release c.freeTags_freeTags
  rw [once, Scrub.abandon]
  split
  · calc c.freeTags.release = c.freeTags.release.release := c.freeTags.release_release.symm
      _ = c.freeTags.freeTags.release.release := by rw [Scrub.freeTags_freeTags]
  · exact congrArg Scrub.release c.freeTags_freeTags.symm

/-- R176: a channel enters SYNCING, or stays DOWN, before its queue and its scrub context are emptied. -/
theorem Lane.entered_emptied (a : Lane) : a.emptied.entered = a.entered.emptied := by
  unfold Lane.entered
  have state : a.emptied.link.state = a.link.state := rfl
  rw [state]
  split
  · simp only [Lane.emptied, Scrub.softReset_abandon]
  · rfl

theorem Lane.entered_inactive (a : Lane) : a.entered.link.state ≠ .active := by
  unfold Lane.entered
  split <;> exact (nofun : LinkState.syncing ≠ .active)

theorem Lane.emptied_moves {a : Lane} (hs : a.link.state ≠ .active) : LaneMoves a a.emptied :=
  .head (.discard a hs) (.single (.scrub _ _ (Scrub.softReset_keeps _)))

theorem State.softReset_lanes : Lanes s s.softReset := fun c => by
  rw [State.lane_softReset, Lane.resynced]
  split
  · next hd => exact Lane.emptied_moves (by rw [show (s.lane c).link.state = .down from hd]; nofun)
  · rw [Lane.entered_emptied]
    exact .head (.enter (s.lane c)) (Lane.emptied_moves (Lane.entered_inactive _))

end

end Sys2Proof.Machine

/-! What the command engine and every command do to the parts of the channels, and the laws of the channels that every step keeps. -/

namespace Sys2Proof.Machine

/-! ### The bodies of the commands -/

/-- Whatever its port and parameters, the body of a command changes the channels as events may. -/
def BodyLanes (body : Body) : Prop := ∀ p ps s, Lanes s (body p ps s).1

section
variable {s : State} {w : Word}

theorem withChannel_lanes {f : Chan → State × Answer} (h : ∀ ch, Lanes s (f ch).1) : Lanes s (withChannel s w f).1 := by
  unfold withChannel
  split
  · exact .refl s
  · exact h _

theorem withScrubChannel_lanes {f : Chan → State × Answer} (h : ∀ ch, Lanes s (f ch).1) :
    Lanes s (withScrubChannel s w f).1 := by
  unfold withScrubChannel
  split
  · exact .refl s
  · exact h _

theorem withCetEntry_lanes {f : CetIdx → CetEntry → State × Answer} (h : ∀ i e, Lanes s (f i e).1) :
    Lanes s (withCetEntry s w f).1 := by
  unfold withCetEntry withCetIndex
  split
  · exact .refl s
  · dsimp only
    split
    · exact .refl s
    · exact h _ _

theorem withRetEntry_lanes {needs : RetState} {f : RetIdx → RetEntry → State × Answer} (h : ∀ i e, Lanes s (f i e).1) :
    Lanes s (withRetEntry s w needs f).1 := by
  unfold withRetEntry withRetIndex
  split
  · exact .refl s
  · dsimp only
    split
    · exact .refl s
    · split
      · exact h _ _
      · exact .refl s

end

/-! The link commands and those of the engine alone. -/

theorem bodyConfigureChannel_lanes : BodyLanes bodyConfigureChannel := fun _ _ s => withChannel_lanes fun ch => by
  dsimp only
  split
  · exact .refl s
  · split
    · exact .refl s
    · split
      · exact .refl s
      · exact (s.modLink_lanes ch (.books _ _ _ _)).trans (State.modScrub_lanes _ ch (Scrub.fitCursor_keeps _ _))

theorem bodyLinkEnable_lanes : BodyLanes bodyLinkEnable := fun _ _ s => withChannel_lanes fun ch => by
  split
  · exact s.enterSyncing_lanes ch
  · exact .refl s

theorem bodyResyncLink_lanes : BodyLanes bodyResyncLink := fun _ _ s => withChannel_lanes fun ch => by
  split
  · exact s.enterSyncing_lanes ch
  · exact .refl s

theorem bodyLinkDisable_lanes : BodyLanes bodyLinkDisable := fun _ _ s => withChannel_lanes fun ch => by
  split
  · exact .refl s
  · refine (s.goDown_lanes ch).trans (State.discardQueue_lanes _ ch ?_)
    have down : ((s.goDown ch).lane ch).link.state = .down := by rw [State.lane_goDown, if_pos rfl]; rfl
    rw [show ((s.goDown ch).link ch).state = .down from down]
    nofun

theorem bodySetPolicy_lanes : BodyLanes bodySetPolicy := fun _ ps s => by
  unfold bodySetPolicy
  dsimp only
  split
  · exact .refl s
  · split
    · exact .refl s
    · unfold PolicyWords.apply
      dsimp only
      split <;> exact .refl s

theorem State.clearCounters_lanes (s : State) (ch : Chan) : Lanes s (s.clearCounters ch) :=
  (s.modCounters_lanes ch fun _ => ⟨0, 0, 0, 0, 0, 0, 0, 0, 0⟩).trans
    (((s.modCounters ch fun _ => ⟨0, 0, 0, 0, 0, 0, 0, 0, 0⟩).modClassifier ch fun _ => ⟨0, 0⟩).modScrub_lanes ch
      (f := fun c => { c with counters := ⟨0, 0, 0⟩ }) (Scrub.SameWork.keeps ⟨rfl, rfl, rfl, rfl, rfl⟩))

theorem bodyReadCounters_lanes : BodyLanes bodyReadCounters := fun _ _ s => withChannel_lanes fun ch => by
  split
  · exact .refl s
  · dsimp only
    split
    · exact s.clearCounters_lanes ch
    · exact .refl s

theorem bodyInjectReport_lanes : BodyLanes bodyInjectReport := fun _ ps s => by
  unfold bodyInjectReport
  split
  · split <;> exact .refl s
  · exact .refl s

theorem bodySetAuthority_lanes : BodyLanes bodySetAuthority := fun _ ps s => by
  unfold bodySetAuthority
  split <;> exact .refl s

theorem bodySetServiceFirst_lanes : BodyLanes bodySetServiceFirst := fun _ ps s => by
  unfold bodySetServiceFirst
  split <;> exact .refl s

theorem bodyEngineReset_lanes : BodyLanes bodyEngineReset := fun _ _ s => by
  have h := s.softReset_lanes
  unfold bodyEngineReset
  generalize s.softReset = t at h ⊢
  exact h

/-! The commands on the CET, on the list and on the log. -/

theorem bodyReadCet_lanes : BodyLanes bodyReadCet := fun _ ps s => by
  unfold bodyReadCet withCetIndex
  split <;> exact .refl s

theorem bodyFindCet_lanes : BodyLanes bodyFindCet := fun _ ps s => by
  unfold bodyFindCet
  split
  · exact .refl s
  · split
    · split <;> exact .refl s
    · exact .refl s

theorem bodyClearCetEntry_lanes : BodyLanes bodyClearCetEntry := fun _ _ s =>
  withCetEntry_lanes fun i _ => (s.freeEntry_tables i _).lanes

theorem bodyClearCetAll_lanes : BodyLanes bodyClearCetAll := fun _ _ s => (s.freeAll_tables _ _).lanes

theorem bodyPinCet_lanes : BodyLanes bodyPinCet := fun _ _ s => withCetEntry_lanes fun i e => by
  split
  · exact .refl s
  · split <;> exact .refl s

theorem bodyUnpinCet_lanes : BodyLanes bodyUnpinCet := fun _ _ s => withCetEntry_lanes fun _ _ => .refl s

theorem bodyStartVerify_lanes : BodyLanes bodyStartVerify := fun _ _ s => withCetEntry_lanes fun i e => by
  split
  · split
    · exact (s.createJob_tables i _).lanes
    · exact .refl s
  · exact .refl s

theorem bodyReadRetire_lanes : BodyLanes bodyReadRetire := fun _ ps s => by
  unfold bodyReadRetire withRetIndex
  split <;> exact .refl s

theorem bodyFindRetire_lanes : BodyLanes bodyFindRetire := fun _ ps s => by
  unfold bodyFindRetire
  split
  · exact .refl s
  · split
    · split <;> exact .refl s
    · exact .refl s

theorem bodyAddRetire_lanes : BodyLanes bodyAddRetire := fun _ ps s => by
  unfold bodyAddRetire
  split
  · exact .refl s
  · split
    · split
      · exact .refl s
      · split <;> exact .refl s
    · exact .refl s

theorem bodyConfirmRetire_lanes : BodyLanes bodyConfirmRetire := fun _ _ s => withRetEntry_lanes fun _ _ => .refl s

theorem bodyRejectRetire_lanes : BodyLanes bodyRejectRetire := fun _ _ s => withRetEntry_lanes fun i e => by
  split
  · next c _ => exact (s.freeEntry_tables c (some .cleared)).lanes
  · exact .refl s

theorem bodyRemoveRetire_lanes : BodyLanes bodyRemoveRetire := fun _ _ s => withRetEntry_lanes fun _ _ => .refl s

theorem bodyReadUe_lanes : BodyLanes bodyReadUe := fun _ ps s => by
  unfold bodyReadUe
  split
  · exact .refl s
  · split <;> exact .refl s

theorem bodyAckUe_lanes : BodyLanes bodyAckUe := fun p ps s => by
  unfold bodyAckUe
  dsimp only
  split
  · exact .refl s
  · split
    · exact .refl s
    · split
      · exact .refl s
      · split <;> exact .refl s

theorem bodyReadUeOverflow_lanes : BodyLanes bodyReadUeOverflow := fun _ ps s => by
  unfold bodyReadUeOverflow
  split
  · exact .refl s
  · dsimp only
    split <;> exact .refl s

/-! The actions of SCRUB_CONTROL. -/

theorem bodyScrubStart_lanes : BodyLanes bodyScrubStart := fun _ _ s => withScrubChannel_lanes fun ch => by
  split
  · exact .refl s
  · split
    · exact s.modScrub_lanes ch (Scrub.start_keeps _ _)
    · exact .refl s

theorem bodyScrubStop_lanes : BodyLanes bodyScrubStop := fun _ _ s =>
  withScrubChannel_lanes fun ch => s.modScrub_lanes ch (Scrub.stop_keeps _)

theorem bodySetCursor_lanes : BodyLanes bodySetCursor := fun _ _ s => withScrubChannel_lanes fun ch => by
  split
  · exact .refl s
  · split
    · split
      · exact s.modScrub_lanes ch (Scrub.SameWork.keeps ⟨rfl, rfl, rfl, rfl, rfl⟩)
      · exact .refl s
    · exact .refl s

theorem bodySetPacing_lanes : BodyLanes bodySetPacing := fun _ _ s => withScrubChannel_lanes fun ch => by
  dsimp only
  split
  · exact s.modScrub_lanes ch (Scrub.SameWork.keeps ⟨rfl, rfl, rfl, rfl, rfl⟩)
  · exact .refl s

theorem bodySetHoldPolicy_lanes : BodyLanes bodySetHoldPolicy := fun _ _ s => withScrubChannel_lanes fun ch => by
  dsimp only
  split
  · exact .refl s
  · split
    · exact s.modScrub_lanes ch (Scrub.setHoldPolicy_keeps _ _ _ _)
    · exact .refl s

theorem bodySetTimeout_lanes : BodyLanes bodySetTimeout := fun _ _ s => withScrubChannel_lanes fun ch => by
  dsimp only
  split
  · exact s.modScrub_lanes ch (Scrub.SameWork.keeps ⟨rfl, rfl, rfl, rfl, rfl⟩)
  · exact .refl s

/-! ### What every command does -/

/-- R164, R165: the take of a command, by what its body does. -/
theorem engineTake_lanes {body : Body} (hb : BodyLanes body) (s : State) (names : Word → Table Word 6 → Bool) (a : Admission) :
    Lanes s (s.engineTake names a body) := by
  unfold State.engineTake
  split
  · exact .refl s
  · next p _ =>
    have latched : Lanes s (s.latch p) := .of_eq (s.lane_latch p)
    split
    · unfold State.carryOut
      split
      · have carried := hb p ((s.latch p).mail p).latched (s.latch p)
        generalize body p ((s.latch p).mail p).latched (s.latch p) = x at carried
        obtain ⟨t, ⟨code, result⟩ | _⟩ := x
        · exact (latched.trans carried).trans (.of_eq (t.lane_complete p code result))
        · exact latched.trans carried
      · exact latched.trans (.of_eq (State.lane_complete _ p _ _))
    · exact .refl s

/-- R184: while RST_N is asserted nothing happens, and otherwise the meaning decides. -/
theorem whileRunning_lanes {s t : State} {f : State → State} (h : s.whileRunning f = .next t) (hf : Lanes s (f s)) :
    Lanes s t := by
  cases hr : s.rst with
  | true => rw [State.whileRunning_held hr] at h; cases h; exact .refl s
  | false => rw [State.whileRunning_running hr] at h; cases h; exact hf

theorem command_lanes {body : Body} {s t : State} {names : Word → Table Word 6 → Bool} {a : Admission}
    (h : s.whileRunning (fun s => s.engineTake names a body) = .next t) (hb : BodyLanes body) : Lanes s t :=
  whileRunning_lanes h (engineTake_lanes hb s names a)

theorem State.setMail_lanes (s : State) (p : Port) (m : Mailbox) : Lanes s (s.setMail p m) :=
  .of_eq fun _ => by cases p <;> rfl

theorem result0Read_lanes (s : State) (p : Port) (edge : Bool) (v : Word) (m : Mailbox) :
    Lanes s (if edge then (s.drive p v).setMail p m else s.drive p v) := by
  have driven : Lanes s (s.drive p v) := .of_eq fun _ => by cases p <;> rfl
  split
  · exact driven.trans (State.setMail_lanes _ p m)
  · exact driven

/-- R184: at Full reset every channel is as at reset. -/
theorem State.lane_held (pending : List Instr) (ch : Chan) : (State.held.setPending pending).lane ch = Lane.held := by
  simp [State.lane, State.link, State.scrub, State.setPending, State.held, Lane.held]

theorem fullReset_lanes {s t : State} (h : execFullReset s = .next t) : Lanes s t := by
  cases h
  exact fun ch => by rw [State.lane_held]; exact .single (.reset _)

theorem fullResetEnd_lanes {s t : State} (h : execFullResetEnd s = .next t) : Lanes s t := by
  cases h
  split <;> exact .refl s

theorem registerWriteIgnored_lanes {s t : State} {p : Port} {index : Fin 64} {v : Word}
    (h : execRegisterWriteIgnored p index v s = .next t) : Lanes s t := by
  unfold execRegisterWriteIgnored at h
  split at h
  · cases h; exact .refl s
  · cases h

theorem unknownKindFrame_lanes {s t : State} {ch : Chan} {seq : BitVec 8} {kind : Byte}
    (h : execUnknownKindFrame ch seq kind s = .next t) : Lanes s t := by
  unfold execUnknownKindFrame at h
  split at h
  · cases h
  · exact whileRunning_lanes h (s.arrive_lanes ch seq fun t _ => t.modCounters_lanes ch _)

/-- Every command changes the channels by the changes that keep their laws. -/
theorem exec_lanes {c : Instr} {s t : State} (h : exec c s = .next t) : Lanes s t := by
  unfold exec at h
  cases c with
  | fullReset => exact fullReset_lanes h
  | fullResetEnd => exact fullResetEnd_lanes h
  | pacingBaseTick => exact whileRunning_lanes h s.lowerPacing_lanes
  | eventClockAdvance =>
    refine whileRunning_lanes h ?_
    split
    · exact s.lowerMs_lanes
    · exact .refl s
  | commandWrite p v => exact whileRunning_lanes h (s.setMail_lanes p _)
  | paramWrite p k v => exact whileRunning_lanes h (s.setMail_lanes p _)
  | mailboxStatusWrite p v => exact whileRunning_lanes h (s.setMail_lanes p _)
  | result0Read p edge => exact whileRunning_lanes h (result0Read_lanes s p edge _ _)
  | eventClearWrite => exact whileRunning_lanes h (.refl s)
  | lineMaskWrite p v => exact whileRunning_lanes h (.of_eq fun _ => by cases p <;> rfl)
  | registerWriteIgnored => exact registerWriteIgnored_lanes h
  | badCommand => exact command_lanes h fun _ _ s => .refl s
  | configureChannel => exact command_lanes h bodyConfigureChannel_lanes
  | linkEnable => exact command_lanes h bodyLinkEnable_lanes
  | linkDisable => exact command_lanes h bodyLinkDisable_lanes
  | resyncLink => exact command_lanes h bodyResyncLink_lanes
  | setPolicy => exact command_lanes h bodySetPolicy_lanes
  | readCet => exact command_lanes h bodyReadCet_lanes
  | findCet => exact command_lanes h bodyFindCet_lanes
  | clearCetEntry => exact command_lanes h bodyClearCetEntry_lanes
  | clearCetAll => exact command_lanes h bodyClearCetAll_lanes
  | pinCet => exact command_lanes h bodyPinCet_lanes
  | unpinCet => exact command_lanes h bodyUnpinCet_lanes
  | startVerify => exact command_lanes h bodyStartVerify_lanes
  | readRetire => exact command_lanes h bodyReadRetire_lanes
  | findRetire => exact command_lanes h bodyFindRetire_lanes
  | addRetire => exact command_lanes h bodyAddRetire_lanes
  | confirmRetire => exact command_lanes h bodyConfirmRetire_lanes
  | rejectRetire => exact command_lanes h bodyRejectRetire_lanes
  | removeRetire => exact command_lanes h bodyRemoveRetire_lanes
  | readUe => exact command_lanes h bodyReadUe_lanes
  | ackUe => exact command_lanes h bodyAckUe_lanes
  | readUeOverflow => exact command_lanes h bodyReadUeOverflow_lanes
  | scrubStart => exact command_lanes h bodyScrubStart_lanes
  | scrubStop => exact command_lanes h bodyScrubStop_lanes
  | setCursor => exact command_lanes h bodySetCursor_lanes
  | setPacing => exact command_lanes h bodySetPacing_lanes
  | setHoldPolicy => exact command_lanes h bodySetHoldPolicy_lanes
  | setTimeout => exact command_lanes h bodySetTimeout_lanes
  | readCounters => exact command_lanes h bodyReadCounters_lanes
  | injectReport => exact command_lanes h bodyInjectReport_lanes
  | readStatus => exact command_lanes h fun _ _ s => .refl s
  | setAuthority => exact command_lanes h bodySetAuthority_lanes
  | setServiceFirst => exact command_lanes h bodySetServiceFirst_lanes
  | clearFatal => exact command_lanes h fun _ _ s => .refl s
  | engineReset => exact command_lanes h bodyEngineReset_lanes
  | scrubControlBadAction => exact command_lanes h fun _ _ s => .refl s
  | purgeVisit =>
    refine whileRunning_lanes h ?_
    split
    · exact .refl s
    · exact s.purgeStep_lanes _
  | error ch seq | scrubReply ch seq =>
    exact whileRunning_lanes h (s.arrive_lanes ch seq fun t _ => (t.accept_lanes ch).trans (State.joinQueue_lanes _ ch _))
  | hold ch seq => exact whileRunning_lanes h (s.arriveHold_lanes ch seq)
  | resume ch seq =>
    exact whileRunning_lanes h (s.arrive_lanes ch seq fun t _ => (t.accept_lanes ch).trans
      (State.modScrub_lanes _ ch (Scrub.takeResume_keeps _)))
  | sync ch seq => exact whileRunning_lanes h (s.arriveSync_lanes ch seq)
  | unknownKindFrame => exact unknownKindFrame_lanes h
  | frameCheckFailure ch => exact whileRunning_lanes h (s.arriveFailing_lanes ch)
  | syncAttemptExpiry ch =>
    refine whileRunning_lanes h ?_
    split
    · next due => exact s.attemptExpiry_lanes ch due.1
    · exact .refl s
  | frameTransmission ch =>
    refine whileRunning_lanes h ?_
    split
    · exact .refl s
    · next up => exact s.modTx_lanes ch Transmitter.Bounded.begin fun hd => absurd hd up
  | frameTransmissionEnd ch => exact whileRunning_lanes h (s.modTx_lanes ch id fun _ hc => by rw [hc]; rfl)
  | intakeTake => exact whileRunning_lanes h s.take_lanes
  | issueEvent ch => exact whileRunning_lanes h (s.issue_lanes ch)
  | pacingExpiry ch =>
    refine whileRunning_lanes h ?_
    split
    · exact s.modScrub_lanes ch (Scrub.SameWork.keeps ⟨rfl, rfl, rfl, rfl, rfl⟩)
    · exact .refl s
  | replyTimeout ch tag =>
    refine whileRunning_lanes h ?_
    split
    · exact .refl s
    · next q hq =>
      split
      · exact s.replyExpiry_lanes ch tag q hq
      · exact .refl s
  | holdCeilingExpiry ch =>
    refine whileRunning_lanes h ?_
    split
    · exact (s.modScrub_lanes ch (Scrub.release_keeps _)).setFlag .holdOverrun
    · exact .refl s
  | systemWindowExpiry position =>
    refine whileRunning_lanes h ?_
    split <;> exact .refl s
  | serviceWindowExpiry position =>
    refine whileRunning_lanes h ?_
    split
    · unfold State.escalate
      dsimp only
      split
      · exact State.setFatal_lanes _ .escalation
      · exact .refl s
    · exact .refl s
  | leakExpiry =>
    refine whileRunning_lanes h ?_
    split
    · exact s.leakTable_tables.lanes
    · exact .refl s

/-! ### The laws along a step -/

/-- R1: the command at the front decides what a step does to the channels. -/
theorem step_lanes {s t : State} (h : step s = .next t) : Lanes s t := by
  unfold step at h
  split at h
  · cases h; exact .refl s
  · next c rest _ => exact exec_lanes (s := s.setPending rest) h

/-- A law of one channel that every change keeps is kept by every step, in every channel. -/
theorem step_keeps_lanes {P : Lane → Prop} (move : ∀ {a b}, LaneMove a b → P a → P b) {s t : State}
    (law : ∀ ch, P (s.lane ch)) (h : step s = .next t) (ch : Chan) : P (t.lane ch) :=
  LaneMoves.keeps move (step_lanes h ch) (law ch)

/-- Settles O57: the credit law is kept along the changes of every channel. -/
theorem creditLawKept : Obligations.CreditLawKept := by
  unfold Obligations.CreditLawKept
  exact fun s t law h => State.creditLaw_iff.mpr (step_keeps_lanes LaneMove.creditLaw (State.creditLaw_iff.mp law) h)

/-- Settles O58: the laws of the link and of the scrub context are kept together, because a link that is not ACTIVE has no request
outstanding whose timeout could fail it; the law of the transmitters is kept by itself. -/
theorem linkScrubAndTransmitterLawsKept : Obligations.LinkScrubAndTransmitterLawsKept := by
  unfold Obligations.LinkScrubAndTransmitterLawsKept
  refine ⟨fun s t link scrub h => ?_, fun s t law h => ?_⟩
  · have both (ch : Chan) : (t.lane ch).link.Law ∧ (t.lane ch).ScrubLaw :=
      step_keeps_lanes (P := fun a => a.link.Law ∧ a.ScrubLaw) (fun move ⟨l, c⟩ => ⟨move.linkLaw l c, move.scrubLaw c⟩)
        (fun ch => ⟨State.linkLaw_iff.mp link ch, State.scrubLaw_iff.mp scrub ch⟩) h ch
    exact ⟨State.linkLaw_iff.mpr fun ch => (both ch).1, State.scrubLaw_iff.mpr fun ch => (both ch).2⟩
  · exact State.transmitterLaw_iff.mpr (step_keeps_lanes LaneMove.transmitterLaw (State.transmitterLaw_iff.mp law) h)

end Sys2Proof.Machine

/-! The laws right after Full reset (R184). -/

namespace Sys2Proof.Machine

theorem State.lane_reset (ch : Chan) : State.reset.lane ch = Lane.held := State.lane_held [] ch

theorem State.reset_scrub (ch : Chan) : State.reset.scrub ch = Scrub.held := congrArg Lane.scrub (State.lane_reset ch)

theorem State.reset_geometry (ch : Chan) : State.reset.geometry ch = Geometry.default :=
  congrArg (fun a => a.link.geometry) (State.lane_reset ch)

theorem State.reset_entry (i : CetIdx) : State.reset.entry i = none := Table.get_fill _ _

theorem State.reset_retired (i : RetIdx) : State.reset.retired i = none := Table.get_fill _ _

theorem State.reset_record (ch : Chan) : State.reset.verify.records.get ch = none := Table.get_fill _ _

theorem State.reset_tag (ch : Chan) (tag : Tag) : (State.reset.scrub ch).tags.get tag = none := by
  rw [State.reset_scrub]
  exact Table.get_fill _ _

theorem State.reset_geometryLaw : State.reset.GeometryLaw := by
  refine ⟨fun ch => ⟨?_, ?_, fun tag q h => ?_⟩, fun i e h => ?_, fun i a h => ?_, nofun⟩
  · rw [State.reset_geometry]
    decide
  · rw [State.reset_geometry, State.reset_scrub]
    decide
  · rw [State.reset_tag] at h; cases h
  · rw [State.reset_entry] at h; cases h
  · rw [State.reset_retired] at h; cases h

/-- R147: no job waits, and none is the head. -/
theorem State.reset_jobs (j : Job) :
    j ∉ State.reset.verify.jobs ∧ j ∉ State.reset.verify.jobs.tail ∧ State.reset.verify.jobs.head? ≠ some j :=
  ⟨List.not_mem_nil, List.not_mem_nil, (Option.some_ne_none j).symm⟩

theorem State.reset_queueLaw : State.reset.QueueLaw := by
  refine ⟨Nat.zero_le 8, List.nodup_nil, fun j h => ?_, fun i e h => ?_, fun j h => ?_, fun j h => ?_⟩
  · exact absurd h (State.reset_jobs j).1
  · rw [State.reset_entry] at h; cases h
  · exact absurd h (State.reset_jobs j).2.2
  · exact absurd h (State.reset_jobs j).2.1

theorem State.reset_recordLaw : State.reset.RecordLaw := fun ch tag number => by
  simp only [State.reset_tag, State.reset_record]
  exact ⟨nofun, nofun⟩

theorem State.reset_readsLaw : State.reset.ReadsLaw := by
  refine ⟨fun j h => ?_, fun j h => ?_, fun j h => ?_, fun ch r h => ?_⟩
  · exact absurd h (State.reset_jobs j).2.2
  · exact absurd h (State.reset_jobs j).2.1
  · exact absurd h (State.reset_jobs j).1
  · rw [State.reset_record] at h; cases h

/-- Settles O56: at reset every channel is as at Full reset and every table is empty. -/
theorem lawsHoldAfterReset : Obligations.LawsHoldAfterReset := by
  unfold Obligations.LawsHoldAfterReset
  exact {
    credit      := State.creditLaw_iff.mpr fun ch => by rw [State.lane_reset]; exact Lane.held_creditLaw
    link        := State.linkLaw_iff.mpr fun ch => by rw [State.lane_reset]; exact Link.held_law
    scrub       := State.scrubLaw_iff.mpr fun ch => by rw [State.lane_reset]; exact Lane.held_scrubLaw
    transmitter := State.transmitterLaw_iff.mpr fun ch => by rw [State.lane_reset]; exact Lane.held_transmitterLaw
    cet         := State.cetLaw_iff.mpr State.held_cetLaw
    list        := State.listLaw_iff.mpr State.held_listLaw
    uel         := State.uelLaw_iff.mpr State.held_uelLaw
    engine      := State.engineLaw_iff.mpr State.held_engineLaw
    geometry    := State.reset_geometryLaw
    purge       := fun i e j a h => by rw [State.reset_entry] at h; cases h
    queue       := State.reset_queueLaw
    record      := State.reset_recordLaw
    reads       := State.reset_readsLaw
    settings    := State.settingsLaw_iff.mpr State.held_settings_inRange }

end Sys2Proof.Machine

/-! CONFIGURE_CHANNEL, and the link commands that leave a link's state: LINK_ENABLE, LINK_DISABLE and RESYNC_LINK (R9, R109, R110, R113,
R121 to R123, R142). -/

namespace Sys2Proof

section
variable {α : Type} {n : Nat} (t : Table α n) (i : Fin n)

theorem Table.modify_modify (f g : α → α) : (t.modify i f).modify i g = t.modify i (fun x => g (f x)) :=
  Table.ext_get fun j => by by_cases h : j = i <;> simp [h]

end

end Sys2Proof

namespace Sys2Proof.Machine

/-! ### A command on a channel -/

section
variable {s : State} {w : Word} {f : Chan → State × Answer}

theorem withChannel_eq {ch : Chan} (h : w = num ch.val) : withChannel s w f = f ch := by
  simp only [withChannel, chanParam_some h]

theorem withChannel_beyond (h : 8 ≤ w.toNat) : withChannel s w f = (s, refusal .badParam) := by
  simp only [withChannel, chanParam_none h]

end

theorem State.latch_link (s : State) (p : Port) (ch : Chan) : (s.latch p).link ch = s.link ch := by cases p <;> rfl

/-- The engine's registers and the mailboxes are those of another state. -/
structure SameEngine (s t : State) : Prop where
  engine  : t.engine = s.engine
  sysMail : t.sysMail = s.sysMail
  svcMail : t.svcMail = s.svcMail

theorem TablesOnly.sameEngine {s t : State} (h : TablesOnly s t) : SameEngine s t := ⟨h.engine, h.sysMail, h.svcMail⟩

theorem SameEngine.refl (s : State) : SameEngine s s := ⟨rfl, rfl, rfl⟩

/-- A command whose effect, on the blocks alone, may be placed before its take. -/
theorem State.answered_placed {s t : State} (p : Port) (h : SameEngine s t) (code : ResultCode) (result : Pages) :
    State.answered p (t.asTaken (s.latch p), .done code result) = t.withDone p code result :=
  s.complete_asTaken t p h.engine h.sysMail h.svcMail code result

/-- R109, R121 to R123: a command on a channel, and its refusal of a channel above 7. -/
theorem State.Takes.run_channel {s : State} {p : Port} {n : Nat} (h : s.Takes p n)
    {g : Table Word 6 → State → Chan → State × Answer} :
    let run := s.whileRunning (fun s => s.engineTake (codeIs n) .any fun _ ps s => withChannel s (ps.get 0) (g ps s))
    (∀ ch : Chan, s.param p 0 = num ch.val → run = .next (State.answered p (g (s.mail p).params (s.latch p) ch))) ∧
    (8 ≤ (s.param p 0).toNat → run = .next (s.withRefusal p .badParam)) := by
  intro run
  have taken : run = .next (State.answered p (withChannel (s.latch p) (s.param p 0) (g (s.mail p).params (s.latch p)))) :=
    h.run_any _
  rw [taken]
  refine ⟨fun ch hc => ?_, fun hb => ?_⟩
  · rw [withChannel_eq hc]
  · rw [withChannel_beyond hb]
    exact congrArg _ (s.answered_latch p _ _)

/-! ### CONFIGURE_CHANNEL -/

/-- R9, R123: what the test of a new geometry asks of the CET and of the list. -/
theorem State.compatible_iff {s : State} {ch : Chan} {g : Geometry} : s.compatible ch g = true ↔
    (∀ i e, s.entry i = some e → e.key.channel = ch → e.compatible g = true) ∧
    (∀ i a, s.retired i = some a → a.range.channel = ch → a.range.compatible (s.geometry ch) g = true) := by
  simp only [State.compatible, Bool.and_eq_true, List.all_eq_true]
  refine and_congr ⟨fun h i e he hc => ?_, fun h x hx => ?_⟩ ⟨fun h i a ha hc => ?_, fun h x hx => ?_⟩
  · have fits := h _ (Table.get_mem_cells _ i)
    rw [show s.cet.entries.get i = some e from he] at fits
    simpa [hc] using fits
  · obtain ⟨i, rfl⟩ := (Table.mem_cells_iff _ _).mp hx
    cases he : s.cet.entries.get i with
    | none => rfl
    | some e => simpa [or_iff_not_imp_left] using h i e he
  · have fits := h _ (Table.get_mem_cells _ i)
    rw [show s.retire.entries.get i = some a from ha] at fits
    simpa [hc] using fits
  · obtain ⟨i, rfl⟩ := (Table.mem_cells_iff _ _).mp hx
    cases ha : s.retire.entries.get i with
    | none => rfl
    | some a => simpa [or_iff_not_imp_left] using h i a ha

theorem State.latch_compatible (s : State) (p : Port) (ch : Chan) (g : Geometry) :
    (s.latch p).compatible ch g = s.compatible ch g := by cases p <;> rfl

/-- R142. -/
theorem Scrub.fitCursor_eq (c : Scrub) (g : Geometry) : c.fitCursor g = { c with
    cursor := if g.admits c.cursor.rank c.cursor.bank c.cursor.row = true then c.cursor else ⟨0, 0, 0⟩ } := by
  unfold Scrub.fitCursor
  split <;> rfl

/-- R123, R142: the link of a channel has a new geometry, and its cursor lies within it. -/
def State.configured (s : State) (ch : Chan) (g : Geometry) : State :=
  (s.modLink ch (fun l => { l with geometry := g })).modScrub ch (fun c => c.fitCursor g)

/-- R123: CONFIGURE_CHANNEL of a channel, with its tests in their order. -/
theorem State.Takes.configureChannel {s : State} {p : Port} {ch : Chan} (h : s.Takes p 1) (hc : s.param p 0 = num ch.val)
    {g : Geometry} (hg : g = ⟨(s.param p 1).toNat, (s.param p 2).toNat, (s.param p 3).toNat⟩) :
    exec .configureChannel s = .next (
      if g.allowed = false then s.withRefusal p .badParam
      else if (s.link ch).state ≠ .down then s.withRefusal p .stateConflict
      else if s.compatible ch g = false then s.withRefusal p .stateConflict
      else (s.configured ch g).withOk p []) := by
  subst hg
  refine (h.run_channel.1 ch hc).trans (congrArg _ ?_)
  simp only [s.latch_link, s.latch_compatible, Bool.not_eq_true']
  rw [show (s.mail p).params.get 1 = s.param p 1 from rfl, show (s.mail p).params.get 2 = s.param p 2 from rfl,
    show (s.mail p).params.get 3 = s.param p 3 from rfl]
  split
  · exact s.answered_latch p _ _
  · split
    · exact s.answered_latch p _ _
    · split
      · exact s.answered_latch p _ _
      · exact (congrArg (fun t => State.answered p (t, okWords [])) (by cases p <;> rfl)).trans
          (State.answered_placed (t := s.configured ch _) p ⟨rfl, rfl, rfl⟩ _ _)

/-- Settles O18: the tests of the command in their order, and the two updates of the channel. -/
theorem configureChannelInstallsGeometry : Obligations.ConfigureChannelInstallsGeometry := by
  unfold Obligations.ConfigureChannelInstallsGeometry
  refine fun p s h => ⟨h.run_channel.2, fun ch hc => ?_⟩
  intro g
  have run := h.configureChannel hc (g := g) rfl
  refine ⟨fun refused => ?_, fun allowed up => ?_, fun allowed down conflict => ?_, fun allowed down entries ranges => ?_⟩
  · rw [run, if_pos refused]
  · rw [run, if_neg (by simp [allowed]), if_pos up]
  · have unfit : s.compatible ch g = false := by
      rw [← Bool.not_eq_true, State.compatible_iff]
      rintro ⟨entries, ranges⟩
      rcases conflict with ⟨i, e, he, hk, hf⟩ | ⟨i, a, ha, hr, hf⟩
      · exact absurd (entries i e he hk) (by simp [hf])
      · exact absurd (ranges i a ha hr) (by simp [hf])
    rw [run, if_neg (by simp [allowed]), if_neg (by simp [down]), if_pos unfit]
  · have fit : s.compatible ch g = true := State.compatible_iff.mpr ⟨entries, ranges⟩
    have scrub (c : Chan) : (s.configured ch g).scrub c = if c = ch then (s.scrub ch).fitCursor g else s.scrub c :=
      State.scrub_modScrub _ _ _ _
    have link (c : Chan) : (s.configured ch g).link c = if c = ch then { s.link ch with geometry := g } else s.link c :=
      State.link_modLink _ _ _ _
    refine ⟨s.configured ch g, ?_, rfl, ?_, ?_, ?_, fun c hne => ⟨?_, ?_⟩⟩
    · rw [run, if_neg (by simp [allowed]), if_neg (by simp [down]), if_neg (by simp [fit])]
    · rw [link, if_pos rfl]
    · rw [scrub, if_pos rfl, Scrub.fitCursor_eq]
    · rw [scrub, if_pos rfl, Scrub.fitCursor_eq]
    · rw [link, if_neg hne]
    · rw [scrub, if_neg hne]

end Sys2Proof.Machine

/-! LINK_ENABLE, RESYNC_LINK and LINK_DISABLE (R109, R110, R113, R121, R122). -/

namespace Sys2Proof.Machine

/-! ### What a departure is told of -/

section
variable {s t : State} {ch : Chan}

/-- R113: a departure leaves the engine, the list, the log, the injection slot and the classifier. -/
theorem Departed.sameEngine (h : Departed s t ch) : SameEngine s t :=
  ⟨(congrArg State.engine h.frame :), (congrArg State.sysMail h.frame :), (congrArg State.svcMail h.frame :)⟩

theorem Departed.retire (h : Departed s t ch) : t.retire = s.retire := (congrArg State.retire h.frame :)

theorem Departed.uel (h : Departed s t ch) : t.uel = s.uel := (congrArg State.uel h.frame :)

theorem Departed.intake (h : Departed s t ch) : t.intake = s.intake := (congrArg State.intake h.frame :)

/-- After a departure the link of its channel may count, and begin or end an attempt, its transmitter may take a SYNC_REQUEST, and
queues may be emptied. -/
theorem Departed.adjusted (h : Departed s t ch) {f : Link → Link} {x : Transmitter → Transmitter} {queues : Table (List Report) 8}
    {attempts : Nat} {timer : Timer} {counters : LinkCounters}
    (hf : f (t.link ch) = { t.link ch with attempts := attempts, attemptTimer := timer, counters := counters })
    (hx : ∀ frame ∈ (x (t.txs.get ch)).waiting, frame = .syncRequest) :
    Departed s { t with links := t.links.modify ch f, txs := t.txs.modify ch x, queues := queues } ch := by
  generalize hu : ({ t with links := t.links.modify ch f, txs := t.txs.modify ch x, queues := queues } : State) = u
  have self : u.link ch = { t.link ch with attempts := attempts, attemptTimer := timer, counters := counters } := by
    rw [← hf, ← hu]; exact Table.get_modify_self _ _ _
  have other (c : Chan) (hc : c ≠ ch) : u.link c = t.link c ∧ u.txs.get c = t.txs.get c := by
    rw [← hu]; exact ⟨Table.get_modify_ne _ _ hc, Table.get_modify_ne _ _ hc⟩
  have sent : u.txs.get ch = x (t.txs.get ch) := by rw [← hu]; exact Table.get_modify_self _ _ _
  have state (c : Chan) : (u.link c).state = (t.link c).state := by
    by_cases hc : c = ch
    · rw [hc, self]
    · rw [(other c hc).1]
  have passed (jobs : List Job) : u.passedOver jobs = t.passedOver jobs := by simp only [State.passedOver, state]
  have head (jobs : List Job) : u.fromHead jobs = t.fromHead jobs := by simp only [State.fromHead, state]
  have frame := congrArg (fun v : State => { v with links := u.links, txs := u.txs, queues := u.queues }) h.frame
  constructor
  case aborted =>
    intro j rest hj hc
    obtain ⟨change, records⟩ := h.aborted j rest hj hc
    rw [passed, head]
    subst hu
    exact ⟨⟨change.queue, change.lastAbort, change.flag, change.entries, change.cet, change.verify⟩, records⟩
  case others =>
    intro c hc
    obtain ⟨link, tx, scrub, record⟩ := h.others c hc
    obtain ⟨link', tx'⟩ := other c hc
    subst hu
    exact ⟨link'.trans link, tx'.trans tx, scrub, record⟩
  case frame => subst hu; exact frame
  case credits => rw [self]; exact h.credits
  case failures => rw [self]; exact h.failures
  case kept => rw [self]; exact h.kept
  case waiting => rw [sent]; exact hx
  all_goals subst hu
  case tags => exact h.tags
  case run => exact h.run
  case hold => exact h.hold
  case patrol => exact h.patrol
  case context => exact h.context
  case job => exact h.job
  case unmoved => exact h.unmoved
  case record => exact h.record
  case flag => exact h.flag

/-- A departure told from the state before the link of its channel counted. -/
theorem Departed.of_counted {f : Link → Link} (h : Departed (s.modLink ch f) t ch)
    (hf : (f (s.link ch)).geometry = (s.link ch).geometry ∧ (f (s.link ch)).expected = (s.link ch).expected) :
    Departed s t ch := by
  have self : (s.modLink ch f).link ch = f (s.link ch) := Table.get_modify_self _ _ _
  have kept := h.kept
  rw [self, hf.1, hf.2] at kept
  refine { h with kept := kept, aborted := fun j rest hj hc => ?_, others := fun c hc => ?_ }
  · obtain ⟨change, records⟩ := h.aborted j rest hj hc
    exact ⟨⟨change.queue, change.lastAbort, change.flag, change.entries, change.cet, change.verify⟩, records⟩
  · obtain ⟨link, rest⟩ := h.others c hc
    exact ⟨link.trans (Table.get_modify_ne _ _ hc), rest⟩

end

/-! ### Entry to SYNCING -/

section
variable {s : State} {ch : Chan}

theorem State.enterSyncing_active (h : (s.link ch).state = .active) : s.enterSyncing ch =
    ((s.departActive ch .syncing).modLink ch (fun l =>
      { l.dropCredits with attempts := 1, attemptTimer := some Config.syncAttemptMs })).modTx ch Transmitter.sendSync := by
  simp only [State.enterSyncing, State.linkActive, h, beq_self_eq_true, if_true]

/-- R110: from DOWN or FAILED, with no RUNNING job on the channel. -/
theorem State.enterSyncing_inactive (h : (s.link ch).state ≠ .active)
    (hj : ∀ j, s.verify.jobs.head? = some j → j.channel ≠ ch) : s.enterSyncing ch = { s with
      links := s.links.modify ch Link.syncing
      txs := s.txs.modify ch Transmitter.sendSync
      events := { s.events with flags := s.events.flags ||| EventFlag.linkChange.mask } } := by
  have kept : (s.setLinkState ch .syncing).abortRunningOn ch = s.setLinkState ch .syncing :=
    State.abortRunningOn_unmoved _ ch hj
  simp only [State.enterSyncing, State.linkActive, beq_iff_eq, h, if_false, kept]
  exact congrArg (fun links => ({ s with
    links := links
    txs := s.txs.modify ch Transmitter.sendSync
    events := { s.events with flags := s.events.flags ||| EventFlag.linkChange.mask } } : State))
    (s.links.modify_modify ch (fun l => { l with state := .syncing })
      (fun l => { l.dropCredits with attempts := 1, attemptTimer := some Config.syncAttemptMs }))

theorem State.link_enterSyncing : (s.enterSyncing ch).link ch = (s.link ch).syncing := by
  have lane : (s.enterSyncing ch).lane ch = (s.lane ch).entered := (s.lane_enterSyncing ch ch).trans (if_pos rfl)
  rw [show (s.enterSyncing ch).link ch = ((s.enterSyncing ch).lane ch).link from rfl, lane, Lane.entered]
  split <;> rfl

/-- R113: RESYNC_LINK of an ACTIVE link. -/
theorem State.enterSyncing_departed (h : (s.link ch).state = .active) : Departed s (s.enterSyncing ch) ch := by
  obtain ⟨departed, link, tx, -, -⟩ := s.departActive_departed ch .syncing nofun
  rw [State.enterSyncing_active h]
  refine departed.adjusted (queues := (s.departActive ch .syncing).queues) (attempts := 1)
    (timer := some Config.syncAttemptMs) (counters := (s.link ch).counters)
    (f := fun l => { l.dropCredits with attempts := 1, attemptTimer := some Config.syncAttemptMs })
    (x := Transmitter.sendSync) ?_ ?_
  · rw [link]; rfl
  · rw [tx]
    simp [Transmitter.sendSync, Transmitter.withdraw, List.filter_filter]

theorem State.enterSyncing_sameEngine (s : State) (ch : Chan) : SameEngine s (s.enterSyncing ch) := by
  have left : SameEngine s (s.departActive ch .syncing) := (s.departActive_departed ch .syncing nofun).1.sameEngine
  have told : SameEngine s ((s.setLinkState ch .syncing).abortRunningOn ch) := by
    obtain ⟨engine, sys, svc⟩ := ((s.setLinkState ch .syncing).abortRunningOn_tables ch).sameEngine
    exact ⟨engine, sys, svc⟩
  unfold State.enterSyncing
  dsimp only
  split
  · exact ⟨left.engine, left.sysMail, left.svcMail⟩
  · exact ⟨told.engine, told.sysMail, told.svcMail⟩

theorem State.latch_enterSyncing (s : State) (p : Port) (ch : Chan) :
    (s.latch p).enterSyncing ch = (s.enterSyncing ch).asTaken (s.latch p) :=
  (congrArg (State.enterSyncing · ch) (s.latch_asTaken p)).trans (s.enterSyncing_asTaken _ ch)

/-- R109, R122: the new state, SYNCING, is coded 1. -/
theorem State.answered_enterSyncing (s : State) (p : Port) (ch : Chan) :
    State.answered p (((s.latch p).enterSyncing ch).okLinkState ch) = (s.enterSyncing ch).withOk p [1] := by
  have state : ((s.enterSyncing ch).link ch).state = .syncing := by rw [State.link_enterSyncing]; rfl
  rw [s.latch_enterSyncing]
  have answer : ((s.enterSyncing ch).asTaken (s.latch p)).okLinkState ch =
      ((s.enterSyncing ch).asTaken (s.latch p), okWords [num ((s.enterSyncing ch).link ch).state.code]) := rfl
  rw [answer, state]
  exact State.answered_placed p (s.enterSyncing_sameEngine ch) _ _

variable {p : Port}

theorem State.Takes.linkEnable (h : s.Takes p 2) (hc : s.param p 0 = num ch.val) (hs : (s.link ch).state = .down) :
    exec .linkEnable s = .next ((s.enterSyncing ch).withOk p [1]) := by
  refine (h.run_channel.1 ch hc).trans (congrArg _ ?_)
  rw [if_pos ((congrArg Link.state (s.latch_link p ch)).trans hs), s.answered_enterSyncing]

theorem State.Takes.resyncLink (h : s.Takes p 4) (hc : s.param p 0 = num ch.val)
    (hs : (s.link ch).state = .active ∨ (s.link ch).state = .failed) :
    exec .resyncLink s = .next ((s.enterSyncing ch).withOk p [1]) := by
  refine (h.run_channel.1 ch hc).trans (congrArg _ ?_)
  rw [if_pos (by rw [s.latch_link]; exact hs), s.answered_enterSyncing]

end

/-- Settles O19: from DOWN and FAILED the entry to SYNCING written out, and from ACTIVE what the departure leaves, with the new attempt
and its SYNC_REQUEST. -/
theorem linkEnableAndResync : Obligations.LinkEnableAndResync := by
  unfold Obligations.LinkEnableAndResync
  refine ⟨fun p ch s hc hj => ?_, fun p ch s h hc hs => ?_⟩
  · intro t
    have entered (hs : (s.link ch).state ≠ .active) : s.enterSyncing ch = t := State.enterSyncing_inactive hs hj
    refine ⟨fun h hs => ?_, fun h hs => ?_⟩
    · rw [h.linkEnable hc hs, entered (by simp [hs])]
    · rw [h.resyncLink hc (.inr hs), entered (by simp [hs])]
  · obtain ⟨-, -, tx, scrub, queues⟩ := s.departActive_departed ch .syncing nofun
    have link : (s.enterSyncing ch).link ch = (s.link ch).syncing := State.link_enterSyncing
    have lane : (s.enterSyncing ch).lane ch = { s.lane ch with
        link := (s.link ch).syncing, tx := (s.txs.get ch).withdraw.sendSync, scrub := (s.scrub ch).abandon } :=
      ((s.lane_enterSyncing ch ch).trans (if_pos rfl)).trans (if_pos hs)
    have sent : (s.enterSyncing ch).txs.get ch = (s.txs.get ch).withdraw.sendSync := congrArg Lane.tx lane
    have left : (s.enterSyncing ch).scrub ch = (s.scrub ch).abandon := congrArg Lane.scrub lane
    refine ⟨s.enterSyncing ch, h.resyncLink hc (.inl hs), State.enterSyncing_departed hs, ?_, ?_, ?_, ?_, ?_, ?_, ?_⟩
    · rw [link]; rfl
    · rw [link]; rfl
    · rw [link]; rfl
    · rw [sent]
      simp [Transmitter.sendSync, Transmitter.withdraw, List.filter_filter]
    · rw [sent]; rfl
    · rw [State.enterSyncing_active hs]; exact queues
    · rw [left, Scrub.abandon_eq]

/-! ### LINK_DISABLE -/

section
variable {s : State} {ch : Chan}

theorem State.link_goDown : (s.goDown ch).link ch =
    { (s.link ch).dropCredits with state := .down, attempts := 0, attemptTimer := none } :=
  congrArg Lane.link ((s.lane_goDown ch ch).trans (if_pos rfl))

theorem State.scrub_goDown : (s.goDown ch).scrub ch = (s.scrub ch).abandon :=
  congrArg Lane.scrub ((s.lane_goDown ch ch).trans (if_pos rfl))

theorem State.txs_goDown : (s.goDown ch).txs.get ch = .cut := congrArg Lane.tx ((s.lane_goDown ch ch).trans (if_pos rfl))

/-- The intake queues are kept until they are discarded. -/
theorem State.queues_goDown (c : Chan) : (s.goDown ch).queues.get c = s.queues.get c := by
  refine (congrArg Lane.queue (s.lane_goDown ch c)).trans ?_
  split
  · next hc => rw [hc]; rfl
  · rfl

/-- R121: going DOWN has the effects of a departure. -/
theorem State.goDown_departed (s : State) (ch : Chan) : Departed s (s.goDown ch) ch := by
  have link : (((s.setLinkState ch .down).modLink ch (fun l =>
      { l.dropCredits with attempts := 0, attemptTimer := none })).modTx ch (fun _ => Transmitter.cut)).link ch =
        { (s.link ch).dropCredits with state := .down, attempts := 0, attemptTimer := none } := by
    simp [State.setLinkState, State.setFlag, State.link, State.modLink, State.modTx, Link.dropCredits]
  refine State.leave_departed (u := ((s.setLinkState ch .down).modLink ch (fun l =>
    { l.dropCredits with attempts := 0, attemptTimer := none })).modTx ch (fun _ => Transmitter.cut)) rfl ?_ ?_ ?_ ?_ ?_ ?_
  · rw [link]; exact ⟨rfl, rfl⟩
  · rw [link]; rfl
  · rw [link]; exact ⟨rfl, rfl⟩
  · rw [link]; nofun
  · simp [State.txs_modTx, Transmitter.cut]
  · intro c hc
    simp [State.setLinkState, State.setFlag, State.link, State.modLink, State.modTx, hc]

/-- R121, R156: going DOWN keeps every entry of the CET apart from its verify status. -/
theorem State.goDown_still (s : State) (ch : Chan) (i : CetIdx) :
    ((s.goDown ch).entry i).map CetEntry.still = (s.entry i).map CetEntry.still := by
  unfold State.goDown
  dsimp only
  rw [(State.abortRunningOn_kept _ ch).1, State.entry, (State.abandonRequests_none_kept _ ch).1]
  rfl

/-- R86, R121: after the discard the departure still holds. -/
theorem State.discarded_departed (s : State) (ch : Chan) : Departed s ((s.goDown ch).discardQueue ch) ch := by
  have cut : ∀ frame ∈ ((s.goDown ch).txs.get ch).waiting, frame = .syncRequest := (s.goDown_departed ch).waiting
  have same : (s.goDown ch).txs.modify ch id = (s.goDown ch).txs := by simp [Table.modify]
  have adjusted := (s.goDown_departed ch).adjusted (x := id) (queues := (s.goDown ch).queues.set ch []) (f := fun l =>
    { l with counters := { l.counters with discarded := satAdd l.counters.discarded ((s.goDown ch).queued ch) } }) rfl cut
  rw [same] at adjusted
  exact adjusted

theorem State.latch_goDown (s : State) (p : Port) (ch : Chan) :
    ((s.latch p).goDown ch).discardQueue ch = ((s.goDown ch).discardQueue ch).asTaken (s.latch p) := by
  rw [show (s.latch p).goDown ch = (s.goDown ch).asTaken (s.latch p) from
    (congrArg (State.goDown · ch) (s.latch_asTaken p)).trans (s.goDown_asTaken _ ch)]
  rfl

theorem State.latch_queued (s : State) (p : Port) (ch : Chan) : (s.latch p).queued ch = s.queued ch := by cases p <;> rfl

theorem State.Takes.linkDisable {p : Port} (h : s.Takes p 3) (hc : s.param p 0 = num ch.val) (hs : (s.link ch).state ≠ .down) :
    exec .linkDisable s = .next (((s.goDown ch).discardQueue ch).withOk p [num (s.queued ch)]) := by
  refine (h.run_channel.1 ch hc).trans (congrArg _ ?_)
  rw [if_neg (by rw [s.latch_link]; exact hs), s.latch_goDown, s.latch_queued]
  exact State.answered_placed p (s.discarded_departed ch).sameEngine _ _

end

/-- Settles O21: going DOWN, and the discard of the queue after it. -/
theorem linkDisableDiscards : Obligations.LinkDisableDiscards := by
  unfold Obligations.LinkDisableDiscards
  intro p ch s h hc hs
  have departed := s.discarded_departed ch
  have link : ((s.goDown ch).discardQueue ch).link ch = { (s.goDown ch).link ch with
      counters := { ((s.goDown ch).link ch).counters with
        discarded := satAdd ((s.goDown ch).link ch).counters.discarded ((s.goDown ch).queued ch) } } :=
    Table.get_modify_self _ _ _
  have queues (c : Chan) : ((s.goDown ch).discardQueue ch).queues.get c = if c = ch then [] else s.queues.get c :=
    (Table.get_set _ _ _ _).trans (by rw [State.queues_goDown])
  have queued : (s.goDown ch).queued ch = (s.queues.get ch).length := congrArg List.length (State.queues_goDown ch)
  refine ⟨(s.goDown ch).discardQueue ch, h.linkDisable hc hs, departed, ?_, ?_, ?_, State.txs_goDown, ?_, ?_, ?_,
    fun c hne => ?_, departed.intake, departed.retire, departed.uel, fun i => ?_⟩
  · rw [link, State.link_goDown]
  · rw [link, State.link_goDown]
  · rw [link, State.link_goDown]
  · rw [link, State.link_goDown, queued]; rfl
  · refine (congrArg Scrub.counters (State.scrub_goDown (s := s) (ch := ch))).trans ?_
    rw [Scrub.abandon_eq]
  · rw [queues, if_pos rfl]
  · rw [queues, if_neg hne]
  · have still := congrArg (Option.map fun e => (e.key, e.count, e.result, e.link)) (s.goDown_still ch i)
    rw [Option.map_map, Option.map_map] at still
    exact still

end Sys2Proof.Machine

/-! The transmitter, the sync attempts, arrivals outside ACTIVE, the run of check failures, HOLD and RESUME (R104, R108, R111, R113 to
R117, R138 to R140). -/

namespace Sys2Proof.Machine

/-! ### The transmitter -/

theorem Transmitter.begin_idle (f : DownFrame) (rest : List DownFrame) : Transmitter.begin ⟨f :: rest, none⟩ = ⟨rest, some f⟩ := rfl

theorem Transmitter.begin_eq_self {x : Transmitter} (h : x.sending ≠ none ∨ x.waiting = []) : x.begin = x := by
  obtain ⟨waiting, sending⟩ := x
  cases sending with
  | some f => rfl
  | none =>
    cases waiting with
    | nil => rfl
    | cons f rest => exact absurd h (by simp)

/-- Settles O26: `Transmitter.begin` and `Transmitter.finish` at the transmitter of the channel. -/
theorem transmitterSendsInOrder : Obligations.TransmitterSendsInOrder := by
  unfold Obligations.TransmitterSendsInOrder
  intro ch s hr
  have transmission : exec (.frameTransmission ch) s =
      .next (if (s.link ch).state = .down then s else s.modTx ch Transmitter.begin) :=
    State.whileRunning_running hr fun s => if (s.link ch).state = .down then s else s.modTx ch Transmitter.begin
  refine ⟨fun f rest hs hx => ?_, fun h => ?_, fun f waiting hx => ?_⟩
  · have begun : s.modTx ch Transmitter.begin = { s with txs := s.txs.set ch ⟨rest, some f⟩ } := by
      rw [← Transmitter.begin_idle f rest, ← hx]; rfl
    rw [transmission, if_neg hs, begun]
  · rw [transmission]
    split
    · rfl
    · next hs =>
      have same : s.txs.set ch (s.txs.get ch).begin = s.txs :=
        Table.set_of_get (Transmitter.begin_eq_self (h.resolve_left hs)).symm
      exact congrArg Host.Outcome.next (congrArg s.setTxs same)
  · have finished : (s.txs.get ch).finish = ⟨waiting, none⟩ := by rw [hx]; rfl
    rw [← finished]
    exact State.whileRunning_running hr (State.modTx · ch Transmitter.finish)

/-! ### The sync attempts -/

section
variable {s : State} {ch : Chan}

/-- R111: a further attempt. -/
theorem State.attemptExpiry_retry (h : (s.link ch).attempts < 3) : s.attemptExpiry ch = { s with
    links := s.links.modify ch (fun l => { l with attempts := l.attempts + 1, attemptTimer := some 50 })
    txs := s.txs.modify ch Transmitter.sendSync } := if_pos h

/-- R111: the last attempt has failed. -/
theorem State.attemptExpiry_last (h : 3 ≤ (s.link ch).attempts) : s.attemptExpiry ch = { s with
    links := s.links.modify ch (fun l => { l with state := .failed, attempts := 0, attemptTimer := none })
    events := { s.events with flags := s.events.flags ||| EventFlag.linkChange.mask } } :=
  (if_neg (Nat.not_lt.mpr h)).trans (congrArg (fun links => ({ s with
    links := links
    events := { s.events with flags := s.events.flags ||| EventFlag.linkChange.mask } } : State))
    (s.links.modify_modify ch (fun l => { l with state := .failed })
      (fun l => { l with attempts := 0, attemptTimer := none })))

end

/-- Settles O25: the two branches of the expiry, and its condition. -/
theorem syncAttemptsThenFailure : Obligations.SyncAttemptsThenFailure := by
  unfold Obligations.SyncAttemptsThenFailure
  intro ch s hr
  have expiry : exec (.syncAttemptExpiry ch) s =
      .next (if (s.link ch).state = .syncing ∧ (s.link ch).attemptTimer.expired then s.attemptExpiry ch else s) :=
    State.whileRunning_running hr fun s =>
      if (s.link ch).state = .syncing ∧ (s.link ch).attemptTimer.expired then s.attemptExpiry ch else s
  refine ⟨fun hs ht => ?_, fun h => ?_⟩
  · have due : (s.link ch).state = .syncing ∧ (s.link ch).attemptTimer.expired := ⟨hs, by rw [ht]; rfl⟩
    rw [expiry, if_pos due]
    refine ⟨fun ha => ?_, fun ha => ?_⟩
    · rw [State.attemptExpiry_retry (by omega)]; rfl
    · rw [State.attemptExpiry_last (by omega)]
  · have idle : ¬((s.link ch).state = .syncing ∧ (s.link ch).attemptTimer.expired) := by
      rw [not_and_or]
      exact h.imp_right fun ht => by simpa [Timer.expired] using ht
    rw [expiry, if_neg idle]

/-! ### Arrivals outside ACTIVE -/

/-- R108: an arrival is counted as out of state. -/
def State.countOutOfState (s : State) (ch : Chan) : State :=
  s.modCounters ch (fun c => { c with outOfState := satInc c.outOfState })

/-- R108, R114: a frame that fails the check is counted. -/
def State.countFailing (s : State) (ch : Chan) : State :=
  s.modCounters ch (fun c => { c with checkFailures := satInc c.checkFailures })

section
variable {s : State} {ch : Chan} {seq : BitVec 8} {onward : State → State}

theorem State.arrive_down (h : (s.link ch).state = .down) : s.arrive ch seq onward = s := by rw [State.arrive, h]

theorem State.arrive_outOfState (h : (s.link ch).state = .syncing ∨ (s.link ch).state = .failed) :
    s.arrive ch seq onward = s.countOutOfState ch := by
  unfold State.arrive
  rcases h with h | h <;> rw [h] <;> rfl

theorem State.arriveFailing_counts (h : (s.link ch).state = .syncing ∨ (s.link ch).state = .failed) :
    s.arriveFailing ch = s.countFailing ch := by
  unfold State.arriveFailing
  rcases h with h | h <;> rw [h] <;> rfl

theorem exec_frameCheckFailure (hr : s.rst = false) : exec (.frameCheckFailure ch) s = .next (s.arriveFailing ch) :=
  State.whileRunning_running hr (State.arriveFailing · ch)

theorem exec_sync (hr : s.rst = false) : exec (.sync ch seq) s = .next (s.arriveSync ch seq) :=
  State.whileRunning_running hr (State.arriveSync · ch seq)

/-- A frame that passes the check and is no SYNC, whatever its kind, arrives by the one rule of R108. -/
theorem exec_frames_arrive (hr : s.rst = false) {kind : Byte} (hk : upstreamKind kind = false) (r : ErrorReport) (q : ScrubReply)
    {t : State} (h : ∀ onward, s.arrive ch seq onward = t) :
    ∀ c ∈ [Instr.error ch seq r, .scrubReply ch seq q, .hold ch seq, .resume ch seq, .unknownKindFrame ch seq kind],
      exec c s = .next t := by
  have arrives (onward : State → State) : s.whileRunning (fun s => s.arrive ch seq onward) = .next t :=
    (State.whileRunning_running hr _).trans (congrArg _ (h onward))
  have unknown : exec (.unknownKindFrame ch seq kind) s = s.whileRunning (fun s => s.arrive ch seq
      (fun t => t.modCounters ch (fun c => { c with malformed := satInc c.malformed }))) := if_neg (by simp [hk])
  simp only [List.forall_mem_cons]
  exact ⟨arrives _, arrives _, arrives _, arrives _, unknown.trans (arrives _), by simp⟩

/-- R114: a check failure in ACTIVE lengthens the run. -/
def Link.failing (l : Link) : Link :=
  { l with
    checkFailures := l.checkFailures + 1
    counters := { l.counters with checkFailures := satInc l.counters.checkFailures } }

theorem State.countFailing_run (s : State) (ch : Chan) :
    (s.countFailing ch).modLink ch (fun l => { l with checkFailures := l.checkFailures + 1 }) = s.modLink ch Link.failing :=
  congrArg s.setLinks (s.links.modify_modify ch
    (fun l => { l with counters := { l.counters with checkFailures := satInc l.counters.checkFailures } })
    (fun l => { l with checkFailures := l.checkFailures + 1 }))

/-- R114: the fourth check failure in a row fails the link. -/
theorem State.arriveFailing_active (h : (s.link ch).state = .active) : s.arriveFailing ch =
    if 3 ≤ (s.link ch).checkFailures then (s.modLink ch Link.failing).failLink ch else s.modLink ch Link.failing := by
  have limit : Config.checkFailureLimit ≤ (s.link ch).checkFailures + 1 ↔ 3 ≤ (s.link ch).checkFailures := by
    simp only [Config.checkFailureLimit]; omega
  rw [← s.countFailing_run ch]
  simp only [← limit, State.arriveFailing, h, State.countFailing]

end

/-- Settles O24: by the state of the link; the fourth failure is a departure of the link that has counted it. -/
theorem arrivalsOutsideActiveAndFailures : Obligations.ArrivalsOutsideActiveAndFailures := by
  unfold Obligations.ArrivalsOutsideActiveAndFailures
  refine ⟨fun ch seq kind r q s hr hk => ?_, fun ch s hr hs => ?_⟩
  · intro frames outOfState
    refine ⟨fun hs => ?_, fun hs => ⟨?_, ?_⟩, fun hs => ?_⟩
    · rw [List.forall_mem_cons, List.forall_mem_cons, exec_frameCheckFailure hr, exec_sync hr]
      refine ⟨?_, ?_, exec_frames_arrive hr hk r q fun _ => State.arrive_down hs⟩
      · simp only [State.arriveFailing, hs]
      · simp only [State.arriveSync, hs]
    · exact exec_frames_arrive hr hk r q fun _ => State.arrive_outOfState hs
    · rw [exec_frameCheckFailure hr, State.arriveFailing_counts hs]; rfl
    · rw [exec_sync hr, State.arriveSync, hs]; rfl
  · rw [exec_frameCheckFailure hr, State.arriveFailing_active hs]
    refine ⟨fun hf => ?_, fun hf => ?_⟩
    · rw [if_neg (by omega)]; rfl
    · rw [if_pos (by omega)]
      have counted : (s.modLink ch Link.failing).link ch = (s.link ch).failing := Table.get_modify_self _ _ _
      obtain ⟨departed, link, -, scrub, queues⟩ := (s.modLink ch Link.failing).departActive_departed ch .failed nofun
      rw [counted] at link
      refine ⟨_, rfl, departed.of_counted ⟨rfl, rfl⟩, congrArg Link.state link, queues, ?_, congrArg Link.counters link⟩
      rw [State.failLink, scrub, Scrub.abandon_eq]
      rfl

/-! ### HOLD and RESUME -/

/-- R115: the state once the number of a frame that passes the sequence test has been taken. -/
def State.heard (s : State) (ch : Chan) (seq : BitVec 8) : State :=
  let d := (seq - (s.link ch).expected).toNat
  { s with links := s.links.modify ch (fun l => l.heard seq d), events := s.events.heard d }

/-- R116: the same once the frame has been counted as accepted too, with what its kind makes of the scrub context. -/
def State.accepted (s : State) (ch : Chan) (seq : BitVec 8) (c : Scrub) : State :=
  let d := (seq - (s.link ch).expected).toNat
  { s with
    links := s.links.modify ch (fun l =>
      { l.heard seq d with counters := { (l.heard seq d).counters with accepted := satInc l.counters.accepted } })
    scrubs := s.scrubs.set ch c
    events := s.events.heard d }

section
variable {s : State} {ch : Chan} {seq : BitVec 8} {onward : State → State}

/-- R115, R116: a frame of distance 0 to 127 in ACTIVE. -/
theorem State.arrive_passes (hs : (s.link ch).state = .active) (h : s.passesSeq ch seq) :
    s.arrive ch seq onward = onward (s.heard ch seq) := by
  unfold State.passesSeq at h
  have taken : (s.modLink ch (fun l => { l with checkFailures := 0 })).takeSeq ch seq =
      { s with links := s.links.modify ch (fun l => l.heard seq 0) } :=
    congrArg s.setLinks (s.links.modify_modify ch (fun l => { l with checkFailures := 0 }) (fun l => { l with expected := seq + 1 }))
  simp only [State.arrive, hs, State.arriveActive, seqClass, taken, State.heard]
  generalize (seq - (s.link ch).expected).toNat = d at h ⊢
  by_cases h0 : d = 0
  · subst h0
    rfl
  · have gap : ({ s with links := s.links.modify ch (fun l => l.heard seq 0) } : State).countGap ch d =
        { s with links := s.links.modify ch (fun l => l.heard seq d), events := s.events.heard d } := by
      simp only [EventUnit.heard, Link.heard, h0, if_false, if_true]
      exact congrArg (fun links => ({ s with
        links := links
        events := { s.events with flags := s.events.flags ||| EventFlag.reportsLost.mask } } : State))
        (s.links.modify_modify ch (fun l => l.heard seq 0)
          (fun l => { l with counters := { l.counters with lost := satAdd l.counters.lost d } }))
    simp only [h0, h, if_false, if_true, gap]

theorem State.arrive_accepts (hs : (s.link ch).state = .active) (h : s.passesSeq ch seq) (f : Scrub → Scrub) :
    s.arrive ch seq (fun t => (t.accept ch).modScrub ch f) = s.accepted ch seq (f (s.scrub ch)) := by
  rw [State.arrive_passes hs h]
  simp only [State.heard, State.accepted]
  generalize (seq - (s.link ch).expected).toNat = d
  exact congrArg (fun links => ({ s with
    links := links
    scrubs := s.scrubs.set ch (f (s.scrub ch))
    events := s.events.heard d } : State))
    (s.links.modify_modify ch (fun l => l.heard seq d)
      (fun l => { l with counters := { l.counters with accepted := satInc l.counters.accepted } }))

/-- R116: a command whose frame is accepted and taken by the scrub context. -/
theorem exec_accepts {i : Instr} (hr : s.rst = false) {f : Scrub → Scrub}
    (hi : exec i s = s.whileRunning fun s => s.arrive ch seq fun t => (t.accept ch).modScrub ch f)
    (hs : (s.link ch).state = .active) (h : s.passesSeq ch seq) : exec i s = .next (s.accepted ch seq (f (s.scrub ch))) :=
  hi.trans ((State.whileRunning_running hr _).trans (congrArg _ (State.arrive_accepts hs h f)))

end

section
variable {c : Scrub}

theorem Timer.ofSetting_eq (n : Nat) : Timer.ofSetting n = if n = 0 then none else some n := rfl

/-- R138, R139: a HOLD while the flag is clear. -/
theorem Scrub.takeHold_clear (h : c.holdFlag = false) : c.takeHold = { c with
    holdFlag := true
    ceilingTimer := (if c.ceiling = 0 then none else some c.ceiling)
    patrol := (if c.patrol = .running then
        (if c.holdPolicy = .immediate ∨ c.cursor.row.val % c.segment = 0 then .held else .draining)
      else c.patrol) } := by
  simp only [Scrub.takeHold, h, Bool.false_eq_true, if_false, ← Timer.ofSetting_eq]
  by_cases hp : c.patrol = .running
  · simp only [hp, if_true]
    cases hpol : c.holdPolicy with
    | immediate => simp
    | segment =>
      simp only [Scrub.segmentTest, true_and, reduceCtorEq, false_or]
      split <;> rfl
  · simp only [hp, if_false]

theorem Scrub.takeHold_set (h : c.holdFlag = true) : c.takeHold = c := if_pos h

theorem Scrub.takeResume_set (h : c.holdFlag = true) : c.takeResume = c.release := if_pos h

theorem Scrub.takeResume_clear (h : c.holdFlag = false) : c.takeResume = c := if_neg (by simp [h])

end

/-- Settles O27: what the scrub context makes of an accepted frame, by its hold flag. -/
theorem holdAndResume : Obligations.HoldAndResume := by
  unfold Obligations.HoldAndResume
  intro ch seq s hr hs hp d c accepted
  have hold : exec (.hold ch seq) s = .next (accepted c.takeHold) := exec_accepts hr rfl hs hp
  have resume : exec (.resume ch seq) s = .next (accepted c.takeResume) := exec_accepts hr rfl hs hp
  refine ⟨fun h => ?_, fun h => ?_, fun h => ?_, fun h => ?_⟩
  · rw [hold, Scrub.takeHold_clear h]
  · rw [hold, Scrub.takeHold_set h]
  · rw [resume, Scrub.takeResume_set h]; rfl
  · rw [resume, Scrub.takeResume_clear h]

end Sys2Proof.Machine

/-! A SYNC in SYNCING and in ACTIVE, and the verify read that a far-end restart abandons (R104, R112, R118, R119, R141, R153). -/

namespace Sys2Proof.Machine

/-! ### The end of a read and the lanes

The verify queue takes the end of a read without a look at the transmitters and the scrub contexts, so that what these have done may be
placed after it. -/

/-- A state with the transmitters and the scrub contexts of another. -/
def State.withLanes (s x : State) : State := { s with txs := x.txs, scrubs := x.scrubs }

section
variable (s x : State)

theorem makeHead_withLanes (jobs : List Job) : makeHead jobs (s.withLanes x) = (makeHead jobs s).withLanes x := by
  induction jobs generalizing s with
  | nil => rfl
  | cons j rest ih =>
    unfold makeHead
    rw [show (s.withLanes x).linkActive j.channel = s.linkActive j.channel from rfl]
    split
    · rfl
    · exact ih ((s.setStatus j.cet .idle).noteAbort .link j.cet)

theorem State.propose_withLanes (r : Range) (ev : Evidence) :
    (s.withLanes x).propose r ev = ((s.propose r ev).1.withLanes x, (s.propose r ev).2) := by
  unfold State.propose
  rw [show (s.withLanes x).overlapping r = s.overlapping r from rfl, show (s.withLanes x).freeRetire = s.freeRetire from rfl]
  split
  · rfl
  · split <;> rfl

theorem State.proposalAttempt_withLanes (i : CetIdx) : (s.withLanes x).proposalAttempt i = (s.proposalAttempt i).withLanes x := by
  unfold State.proposalAttempt
  rw [show (s.withLanes x).entry i = s.entry i from rfl]
  split
  · rfl
  · next e _ =>
    rw [show (s.withLanes x).geometry e.key.channel = s.geometry e.key.channel from rfl, State.propose_withLanes]
    generalize s.propose (e.key.range (s.geometry e.key.channel)) (.cet i) = answer
    obtain ⟨t, _ | _ | _⟩ := answer <;> rfl

theorem State.reachOutcome_withLanes (j : Job) (rest : List Job) :
    (s.withLanes x).reachOutcome j rest = (s.reachOutcome j rest).withLanes x := by
  unfold State.reachOutcome
  dsimp only
  generalize hw : (s.modEntry j.cet (fun e => { e with result := some (j.outcome, s.now), status := .idle })).setFlag .verifyDone = w
  have written : ((s.withLanes x).modEntry j.cet (fun e =>
      { e with result := some (j.outcome, (s.withLanes x).now), status := .idle })).setFlag .verifyDone = w.withLanes x := by
    rw [← hw]; rfl
  rw [written, show (w.withLanes x).unlinked j.cet = w.unlinked j.cet from rfl, show (s.withLanes x).cet = s.cet from rfl,
    State.proposalAttempt_withLanes, ← makeHead_withLanes]
  congr 1
  split <;> rfl

theorem State.countRead_withLanes (r : ReadResult) : (s.withLanes x).countRead r = (s.countRead r).withLanes x := by
  unfold State.countRead
  rw [show (s.withLanes x).verify = s.verify from rfl]
  split
  · rfl
  · dsimp only
    split
    · exact s.reachOutcome_withLanes x _ _
    · rfl

theorem State.endRead_withLanes (ch : Chan) (tag : Tag) (number : BitVec 8) (r : Option ReadResult) :
    (s.withLanes x).endRead ch tag number r = (s.endRead ch tag number r).withLanes x := by
  unfold State.endRead
  rw [show (s.withLanes x).verify = s.verify from rfl]
  split
  · rfl
  · split
    · dsimp only
      split
      · split
        · exact (s.setRecord ch none).countRead_withLanes x _
        · rfl
      · rfl
    · rfl

end

/-! ### The end of a read and LINK_CHANGE -/

section
variable (s : State)

theorem State.setFlag_linkChange {f : EventFlag} (h : EventFlag.linkChange ≠ f) :
    (s.setFlag f).flagged .linkChange = s.flagged .linkChange := by
  rw [State.flagged_setFlag, decide_eq_false h, Bool.or_false]

theorem makeHead_linkChange (jobs : List Job) : (makeHead jobs s).flagged .linkChange = s.flagged .linkChange := by
  induction jobs generalizing s with
  | nil => rfl
  | cons j rest ih =>
    unfold makeHead
    split
    · rfl
    · exact (ih _).trans (State.setFlag_linkChange _ nofun)

theorem State.propose_linkChange (r : Range) (ev : Evidence) :
    (s.propose r ev).1.flagged .linkChange = s.flagged .linkChange := by
  unfold State.propose
  split
  · rfl
  · split <;> exact State.setFlag_linkChange _ nofun

theorem State.proposalAttempt_linkChange (i : CetIdx) : (s.proposalAttempt i).flagged .linkChange = s.flagged .linkChange := by
  unfold State.proposalAttempt
  split
  · rfl
  · next e _ =>
    have proposed := s.propose_linkChange (e.key.range (s.geometry e.key.channel)) (.cet i)
    split <;> next t _ h => rw [h] at proposed; exact proposed

theorem State.reachOutcome_linkChange (j : Job) (rest : List Job) :
    (s.reachOutcome j rest).flagged .linkChange = s.flagged .linkChange := by
  unfold State.reachOutcome
  refine (makeHead_linkChange _ rest).trans ?_
  have written : ((s.modEntry j.cet (fun e => { e with result := some (j.outcome, s.now), status := .idle })).setFlag
      .verifyDone).flagged .linkChange = s.flagged .linkChange := State.setFlag_linkChange _ nofun
  split
  · exact (State.proposalAttempt_linkChange _ _).trans written
  · exact written

theorem State.countRead_linkChange (r : ReadResult) : (s.countRead r).flagged .linkChange = s.flagged .linkChange := by
  unfold State.countRead
  split
  · rfl
  · dsimp only
    split
    · exact s.reachOutcome_linkChange _ _
    · rfl

theorem State.endRead_linkChange (ch : Chan) (tag : Tag) (number : BitVec 8) (r : Option ReadResult) :
    (s.endRead ch tag number r).flagged .linkChange = s.flagged .linkChange := by
  unfold State.endRead
  split
  · rfl
  · split
    · dsimp only
      split
      · split
        · exact (s.setRecord ch none).countRead_linkChange _
        · rfl
      · rfl
    · rfl

theorem State.tellAbandoned_linkChange (ch : Chan) (r : Option ReadResult) (tags : List (Tag × Option Request)) :
    (s.tellAbandoned ch r tags).flagged .linkChange = s.flagged .linkChange := by
  unfold State.tellAbandoned
  induction tags generalizing s with
  | nil => rfl
  | cons y rest ih =>
    rw [List.foldl_cons, ih]
    split
    · split
      · exact s.endRead_linkChange ch _ _ r
      · rfl
    · rfl

end

/-! ### The read that an abandonment ends -/

section
variable {s : State} {ch : Chan} {r : Option ReadResult}

/-- R153: the end of a read that the channel's record does not name changes nothing. -/
theorem State.endRead_unnamed {tag : Tag} (number : BitVec 8) (h : ∀ x, s.verify.records.get ch = some x → x.tag ≠ tag) :
    s.endRead ch tag number r = s := by
  unfold State.endRead
  split
  · rfl
  · next x hx => rw [if_neg fun named => h x hx named.1]

/-- R141: one step of the abandonment, for the tag and the request given. -/
theorem State.tellAbandoned_cons (y : Tag × Option Request) (rest : List (Tag × Option Request)) :
    s.tellAbandoned ch r (y :: rest) = (s.tellAbandoned ch r [y]).tellAbandoned ch r rest := rfl

/-- R141: a channel whose record names none of the tags has no read to end. -/
theorem State.tellAbandoned_unnamed {tags : List (Tag × Option Request)}
    (h : ∀ x, s.verify.records.get ch = some x → ∀ y ∈ tags, x.tag ≠ y.1) : s.tellAbandoned ch r tags = s := by
  induction tags with
  | nil => rfl
  | cons y rest ih =>
    have first : s.tellAbandoned ch r [y] = s := by
      unfold State.tellAbandoned
      simp only [List.foldl_cons, List.foldl_nil]
      split
      · split
        · exact State.endRead_unnamed _ fun x hx => h x hx y List.mem_cons_self
        · rfl
      · rfl
    rw [State.tellAbandoned_cons, first]
    exact ih fun x hx z hz => h x hx z (List.mem_cons_of_mem y hz)

/-- R141, R153: the abandonment of a channel's requests ends the read that its record names, once. -/
theorem State.tellAbandoned_named {tags : List (Tag × Option Request)} (hd : (tags.map Prod.fst).Nodup) {x : ReadRecord}
    (hx : s.verify.records.get ch = some x) {q : Request} (hq : (x.tag, some q) ∈ tags) (hk : q.kind = .verify)
    (hn : x.number = q.number) : s.tellAbandoned ch r tags = s.endRead ch x.tag q.number r := by
  induction tags with
  | nil => cases hq
  | cons y rest ih =>
    obtain ⟨fresh, hd⟩ := List.nodup_cons.mp hd
    rw [State.tellAbandoned_cons]
    rcases List.mem_cons.mp hq with rfl | hq
    · have ended : s.tellAbandoned ch r [(x.tag, some q)] = s.endRead ch x.tag q.number r := by
        simp [State.tellAbandoned, hk]
      have absent : (s.endRead ch x.tag q.number r).verify.records.get ch = none := by
        rw [State.endRead_records, hx]
        simp [hn]
      rw [ended]
      exact State.tellAbandoned_unnamed (by simp [absent])
    · have other : y.1 ≠ x.tag := fun h => fresh (h ▸ List.mem_map_of_mem hq)
      have first : s.tellAbandoned ch r [y] = s := State.tellAbandoned_unnamed fun z hz w hw => by
        obtain rfl : x = z := Option.some.inj (hx.symm.trans hz)
        rw [List.mem_singleton.mp hw]
        exact other.symm
      rw [first]
      exact ih hd hq

theorem Scrub.tagList_nodup (c : Scrub) : (c.tagList.map Prod.fst).Nodup := by
  rw [Scrub.tagList, List.map_map]
  exact List.map_id (List.finRange 4) ▸ List.nodup_finRange 4

end

/-! ### The restart of the accounts -/

section
variable {s : State} {ch : Chan} {seq : BitVec 8}

/-- R104: the CREDIT of a grant, behind frames of which none is a CREDIT. -/
theorem Transmitter.grant_waiting {x : Transmitter} (h : ∀ f ∈ x.waiting, f = .syncRequest) (n : Nat) :
    (x.grant n).waiting = x.waiting ++ (if n = 0 then [] else [.credit n]) := by
  have none : x.waiting.any DownFrame.isCredit = false := by
    rw [List.any_eq_false]
    intro f hf
    rw [h f hf]
    nofun
  unfold Transmitter.grant Transmitter.sendCredit
  rw [none]
  split
  · exact (List.append_nil _).symm
  · rfl

theorem Transmitter.grant_sending (x : Transmitter) (n : Nat) : (x.grant n).sending = x.sending := by
  unfold Transmitter.grant Transmitter.sendCredit
  split
  · rfl
  · split <;> rfl

theorem State.sendCredit_eq (s : State) (ch : Chan) (n : Nat) : s.sendCredit ch n = s.setTxs (s.sendCredit ch n).txs := by
  unfold State.sendCredit
  split <;> rfl

/-- R112: a SYNC in SYNCING changes the link, its transmitter and LINK_CHANGE. -/
theorem State.syncInSyncing_eq (s : State) (ch : Chan) (seq : BitVec 8) : s.syncInSyncing ch seq = { s with
    links := s.links.modify ch (fun l =>
      { l.startCount seq (s.queued ch) with state := .active, attempts := 0, attemptTimer := none })
    txs := (s.syncInSyncing ch seq).txs
    events := { s.events with flags := s.events.flags ||| EventFlag.linkChange.mask } } := by
  unfold State.syncInSyncing
  dsimp only
  rw [State.sendCredit_eq]
  exact congrArg (fun links => ({ s with
    links := links
    txs := (State.sendCredit _ ch _).txs
    events := { s.events with flags := s.events.flags ||| EventFlag.linkChange.mask } } : State))
    (s.links.modify_modify ch (fun l => { l.startCount seq (s.queued ch) with attempts := 0, attemptTimer := none })
      (fun l => { l with state := .active }))

/-- R104, R141: the transmitter and the scrub context of a channel once the far end has restarted the accounts. -/
def State.abandonedLane (s : State) (ch : Chan) : State := (s.modTx ch Transmitter.withdraw).modScrub ch Scrub.abandon

/-- R141, R153: the verify queue has been told of the reads that a far-end restart abandons. -/
def State.toldRestart (s : State) (ch : Chan) : State :=
  (s.abandonedLane ch).tellAbandoned ch (some .noAnswer) (s.scrub ch).tagList

theorem State.abandonedLane_withLanes (s : State) (ch : Chan) : s.abandonedLane ch = s.withLanes (s.abandonedLane ch) := rfl

theorem State.toldRestart_tables (s : State) (ch : Chan) : TablesOnly (s.abandonedLane ch) (s.toldRestart ch) :=
  State.tellAbandoned_tables _ ch _ _

/-- R119: after the verify queue a SYNC in ACTIVE changes the link and its transmitter. -/
theorem State.syncInActive_eq (s : State) (ch : Chan) (seq : BitVec 8) : s.syncInActive ch seq =
    { s.toldRestart ch with links := (s.syncInActive ch seq).links, txs := (s.syncInActive ch seq).txs } := by
  unfold State.syncInActive
  rw [State.sendCredit_eq]
  rfl

theorem State.toldRestart_none (h : s.verify.records.get ch = none) : s.toldRestart ch = s.abandonedLane ch :=
  State.tellAbandoned_unnamed fun _ hx => absurd (h.symm.trans hx) nofun

theorem State.toldRestart_some {tag : Tag} {q : Request} {owned : Bool} (hq : (s.scrub ch).tags.get tag = some q)
    (hk : q.kind = .verify) (hr : s.verify.records.get ch = some ⟨tag, q.number, owned⟩) :
    s.toldRestart ch = (s.endRead ch tag q.number (some .noAnswer)).withLanes (s.abandonedLane ch) := by
  have named : s.toldRestart ch = (s.abandonedLane ch).endRead ch tag q.number (some .noAnswer) :=
    State.tellAbandoned_named (s := s.abandonedLane ch) (Scrub.tagList_nodup _) (x := ⟨tag, q.number, owned⟩) hr
      (Scrub.mem_tagList hq) hk rfl
  have outside := congrArg (State.endRead · ch tag q.number (some .noAnswer)) (s.abandonedLane_withLanes ch)
  exact named.trans (outside.trans (s.endRead_withLanes (s.abandonedLane ch) ch tag q.number _))

theorem State.toldRestart_record (law : s.RecordLaw) : (s.toldRestart ch).verify.records.get ch = none := by
  refine State.tellAbandoned_record _ ch _ _ fun x hx => ?_
  obtain ⟨q, hq, hk, hn⟩ := (law ch x.tag x.number).mpr ⟨x, hx, rfl, rfl⟩
  exact ⟨q, Scrub.mem_tagList hq, hk, hn⟩

end

/-- What the verify queue is told of changes the tables, the flags and its own state alone. -/
theorem TablesOnly.frame {s t : State} (h : TablesOnly s t) :
    t = { s with cet := t.cet, retire := t.retire, verify := t.verify, events := t.events } := by
  obtain ⟨rst, clock, uel, queues, intake, classifier, links, txs, batch, scrubs, engine, sysMail, svcMail, portData, pending, -⟩ := h
  cases t
  simp only at *
  subst_vars
  rfl

/-- Settles O22: in SYNCING the state written out; in ACTIVE the lane of the channel, and the one read that the restart abandons. -/
theorem syncStartsTheCount : Obligations.SyncStartsTheCount := by
  unfold Obligations.SyncStartsTheCount
  refine ⟨fun ch seq s hr hs => ?_, fun ch seq s hr hs => ?_⟩
  · intro grant
    have lane (c : Chan) := s.lane_syncInSyncing ch seq c
    have taken : exec (.sync ch seq) s = .next (s.syncInSyncing ch seq) := by rw [exec_sync hr, State.arriveSync, hs]
    have sent : (s.syncInSyncing ch seq).txs.get ch = (s.txs.get ch).grant grant :=
      congrArg Lane.tx ((lane ch).trans (if_pos rfl))
    refine ⟨_, taken, s.syncInSyncing_eq ch seq, fun c hc => congrArg Lane.tx ((lane c).trans (if_neg hc)), ?_, fun hg => ?_,
      fun hg hw => ?_⟩
    · rw [sent, Transmitter.grant_sending]
    · rw [sent, hg]; rfl
    · rw [sent, Transmitter.grant_waiting hw, if_neg (by omega)]
  · intro grant
    have lane (c : Chan) := s.lane_syncInActive ch seq c
    have self : (s.syncInActive ch seq).lane ch = (s.lane ch).restarted seq := (lane ch).trans (if_pos rfl)
    have taken : exec (.sync ch seq) s = .next (s.syncInActive ch seq) := by rw [exec_sync hr, State.arriveSync, hs]
    have sent : (s.syncInActive ch seq).txs.get ch = (s.txs.get ch).withdraw.grant grant := congrArg Lane.tx self
    have left : (s.syncInActive ch seq).scrub ch = (s.scrub ch).abandon := congrArg Lane.scrub self
    have told := s.syncInActive_eq ch seq
    have verify : (s.syncInActive ch seq).verify = (s.toldRestart ch).verify := (congrArg State.verify told :)
    have cet : (s.syncInActive ch seq).cet = (s.toldRestart ch).cet := (congrArg State.cet told :)
    have retire : (s.syncInActive ch seq).retire = (s.toldRestart ch).retire := (congrArg State.retire told :)
    have events : (s.syncInActive ch seq).events = (s.toldRestart ch).events := (congrArg State.events told :)
    have tables := s.toldRestart_tables ch
    refine ⟨_, taken, congrArg Lane.link self, ?_, fun tag => ?_, ?_, ?_, ?_, ?_, ?_, fun law => ?_, fun hn => ?_,
      fun tag q owned hq hk ho => ?_, ?_, ?_, ?_, fun c hc => ?_⟩
    · rw [sent, Transmitter.grant_waiting (Transmitter.withdraw_waiting _)]; rfl
    · rw [left, Scrub.abandon_eq]; exact Table.get_map _ _ tag
    · rw [left, Scrub.abandon_eq]
    · rw [left, Scrub.abandon_eq]
    · rw [left, Scrub.abandon_eq]
    · rw [left, Scrub.abandon_eq]
    · rw [left, Scrub.abandon_eq]
    · rw [verify]; exact State.toldRestart_record law
    · rw [verify, cet, retire, events, State.toldRestart_none hn]
      exact ⟨rfl, rfl, rfl, rfl⟩
    · rw [verify, cet, retire, events, State.toldRestart_some hq hk ho]
      exact ⟨rfl, rfl, rfl, rfl⟩
    · have scrubs : (s.syncInActive ch seq).scrubs = (s.abandonedLane ch).scrubs :=
        (congrArg State.scrubs told :).trans tables.scrubs
      rw [scrubs, verify, cet, retire, events]
      exact told.trans (congrArg (fun v : State => { v with
        links := (s.syncInActive ch seq).links
        txs := (s.syncInActive ch seq).txs }) tables.frame)
    · rw [told]; exact tables.queues
    · rw [State.flagged, events]
      exact State.tellAbandoned_linkChange _ ch _ _
    · have other := (lane c).trans (if_neg hc)
      exact ⟨congrArg Lane.link other, congrArg Lane.tx other, congrArg Lane.scrub other⟩

end Sys2Proof.Machine

/-! The refusals of link, scrub and retirement commands by channel, index and link state (R53, R109, R121, R122, R143). -/

namespace Sys2Proof.Machine

/-! ### SCRUB_CONTROL of a channel above 7 -/

theorem withScrubChannel_beyond {s : State} {w : Word} {f : Chan → State × Answer} (h : 8 ≤ field w 3 0) :
    withScrubChannel s w f = (s, refusal .badParam) := by
  simp only [withScrubChannel, finOf_none h]

/-- R143: whatever the action, before any other parameter is looked at. -/
theorem State.TakesAction.run_beyond {s : State} {p : Port} {n : Nat} (h : s.TakesAction p n)
    (hb : 8 ≤ field (s.param p 0) 3 0) {g : Table Word 6 → State → Chan → State × Answer} :
    s.whileRunning (fun s => s.engineTake (actionIs n) .any fun _ ps s => withScrubChannel s (ps.get 0) (g ps s)) =
      .next (s.withRefusal p .badParam) := by
  rw [h.run, withScrubChannel_beyond (w := (s.mail p).params.get 0) hb]
  exact congrArg _ (s.answered_latch p _ _)

/-! ### The link commands by the state of the link -/

section
variable {s : State} {p : Port} {ch : Chan}

/-- R109: LINK_ENABLE of a link that is not DOWN. -/
theorem State.Takes.linkEnable_conflict (h : s.Takes p 2) (hc : s.param p 0 = num ch.val) (hs : (s.link ch).state ≠ .down) :
    exec .linkEnable s = .next (s.withRefusal p .stateConflict) := by
  refine (h.run_channel.1 ch hc).trans (congrArg _ ?_)
  rw [if_neg (by rw [s.latch_link]; exact hs)]
  exact s.answered_latch p _ _

/-- R122: RESYNC_LINK of a link that is DOWN or SYNCING. -/
theorem State.Takes.resyncLink_conflict (h : s.Takes p 4) (hc : s.param p 0 = num ch.val)
    (hs : (s.link ch).state = .down ∨ (s.link ch).state = .syncing) :
    exec .resyncLink s = .next (s.withRefusal p .stateConflict) := by
  have still : ¬((s.link ch).state = .active ∨ (s.link ch).state = .failed) := by
    rcases hs with hs | hs <;> rw [hs] <;> decide
  refine (h.run_channel.1 ch hc).trans (congrArg _ ?_)
  rw [if_neg (by rw [s.latch_link]; exact still)]
  exact s.answered_latch p _ _

/-- R121: LINK_DISABLE of a DOWN link discards no report. -/
theorem State.Takes.linkDisable_down (h : s.Takes p 3) (hc : s.param p 0 = num ch.val) (hs : (s.link ch).state = .down) :
    exec .linkDisable s = .next (s.withOk p [0]) := by
  refine (h.run_channel.1 ch hc).trans (congrArg _ ?_)
  rw [if_pos (by rw [s.latch_link]; exact hs)]
  exact s.answered_latch p _ _

end

/-- Settles O20: each command by the test of its channel or index, and the link commands by the state of the link. -/
theorem channelAndIndexRefusals : Obligations.ChannelAndIndexRefusals := by
  unfold Obligations.ChannelAndIndexRefusals
  refine ⟨fun p s => ⟨fun hb => ?_, fun ch hc => ?_⟩, fun p s hb => ?_, fun p s hb ha => ?_⟩
  · exact ⟨fun h => h.run_channel.2 hb, fun h => h.run_channel.2 hb, fun h => h.run_channel.2 hb⟩
  · exact ⟨fun h hs => h.linkEnable_conflict hc hs, fun h hs => h.resyncLink_conflict hc hs,
      fun h hs => h.linkDisable_down hc hs⟩
  · exact ⟨fun h => h.run_beyond hb, fun h => h.run_beyond hb, fun h => h.run_beyond hb, fun h => h.run_beyond hb,
      fun h => h.run_beyond hb, fun h => h.run_beyond hb⟩
  · exact ⟨fun h => (h.run_listed ha).beyond hb, fun h => (h.run_listed ha).beyond hb⟩

end Sys2Proof.Machine

/-! The order of a patrol pass (R129). -/

namespace Sys2Proof.Machine

theorem Geometry.admits_iff {g : Geometry} {rank : Rank} {bank : Bank} {row : Row} :
    g.admits rank bank row = true ↔ rank.val < g.ranks ∧ bank.val < g.banks ∧ row.val < g.rows := by
  simp [Geometry.admits, and_assoc]

/-- R2, R3: an allowed geometry lies within the field ranges. -/
theorem Geometry.allowed_bounds {g : Geometry} (h : g.allowed = true) :
    (1 ≤ g.ranks ∧ g.ranks ≤ 4) ∧ (1 ≤ g.banks ∧ g.banks ≤ 32) ∧ (1 ≤ g.rows ∧ g.rows ≤ 262144) := by
  simp only [Geometry.allowed, Bool.and_eq_true, Bool.or_eq_true, decide_eq_true_eq, beq_iff_eq] at h
  omega

/-- R129: the place of a row in the order of a pass: row fastest, then bank, then rank. -/
def Cursor.place (k : Cursor) (g : Geometry) : Nat := (k.rank.val * g.banks + k.bank.val) * g.rows + k.row.val

/-- A number of two digits, the lower below `n`. -/
theorem two_digits_lt {a b m n : Nat} (ha : a < m) (hb : b < n) : a * n + b < m * n :=
  calc a * n + b < a * n + n := Nat.add_lt_add_left hb _
    _ = (a + 1) * n := (Nat.succ_mul a n).symm
    _ ≤ m * n := Nat.mul_le_mul_right n ha

theorem Cursor.place_lt {k : Cursor} {g : Geometry} (h : g.admits k.rank k.bank k.row = true) :
    k.place g < g.ranks * g.banks * g.rows := by
  obtain ⟨rank, bank, row⟩ := Geometry.admits_iff.mp h
  exact two_digits_lt (two_digits_lt rank bank) row

/-- R129: the cursor goes from the last place to the first, or to the next place. -/
theorem Cursor.advance_cases {k : Cursor} {g : Geometry} (hg : g.allowed = true) (hk : g.admits k.rank k.bank k.row = true) :
    g.admits (k.advance g).1.rank (k.advance g).1.bank (k.advance g).1.row = true ∧
      ((k.advance g).2 = true ∧ k.place g + 1 = g.ranks * g.banks * g.rows ∧ (k.advance g).1.place g = 0 ∨
        (k.advance g).2 = false ∧ (k.advance g).1.place g = k.place g + 1) := by
  obtain ⟨ranks, banks, rows⟩ := g.allowed_bounds hg
  obtain ⟨rank, bank, row⟩ := Geometry.admits_iff.mp hk
  have zero {m n : Nat} (h : 1 ≤ n) : (0 : Fin (m + 1)).val < n := h
  rw [Geometry.admits_iff]
  unfold Cursor.advance
  split
  · next lastRow =>
    split
    · next lastBank =>
      split
      · next lastRank =>
        refine ⟨⟨zero ranks.1, zero banks.1, zero rows.1⟩, .inl ⟨rfl, ?_, ?_⟩⟩
        · rw [Cursor.place, ← lastRow, ← lastBank, ← lastRank]; ring
        · simp [Cursor.place]
      · have raised : (rankOfNat (k.rank.val + 1)).val = k.rank.val + 1 := Nat.mod_eq_of_lt (by omega)
        refine ⟨⟨by rw [raised]; omega, zero banks.1, zero rows.1⟩, .inr ⟨rfl, ?_⟩⟩
        simp only [Cursor.place, raised, Fin.val_zero]
        rw [← lastRow, ← lastBank]; ring
    · have raised : (bankOfNat (k.bank.val + 1)).val = k.bank.val + 1 := Nat.mod_eq_of_lt (by omega)
      refine ⟨⟨rank, by rw [raised]; omega, zero rows.1⟩, .inr ⟨rfl, ?_⟩⟩
      simp only [Cursor.place, raised, Fin.val_zero]
      rw [← lastRow]; ring
  · have raised : (rowOfNat (k.row.val + 1)).val = k.row.val + 1 := Nat.mod_eq_of_lt (by omega)
    refine ⟨⟨rank, bank, by rw [raised]; omega⟩, .inr ⟨rfl, ?_⟩⟩
    simp only [Cursor.place, raised, Nat.add_assoc]

/-- Settles O30: a completed pass has used up the places, and otherwise the next place is one further and still within them. -/
theorem cursorAdvancesInPassOrder : Obligations.CursorAdvancesInPassOrder := by
  unfold Obligations.CursorAdvancesInPassOrder
  intro g k hg hk place
  obtain ⟨within, moved⟩ := Cursor.advance_cases hg hk
  refine ⟨within, ?_⟩
  show (_ ↔ k.place g + 1 = _) ∧ (k.advance g).1.place g = (k.place g + 1) % _
  rcases moved with ⟨complete, last, first⟩ | ⟨incomplete, moved⟩
  · exact ⟨iff_of_true complete last, by rw [first, last, Nat.mod_self]⟩
  · have below : k.place g + 1 < g.ranks * g.banks * g.rows := moved ▸ Cursor.place_lt within
    exact ⟨iff_of_false (by simp [incomplete]) below.ne, by rw [moved, Nat.mod_eq_of_lt below]⟩

end Sys2Proof.Machine

/-! The issue events: which claimant is served, and the patrol step (R129 to R133, R139). -/

namespace Sys2Proof.Machine

/-! ### The claimant that an issue event serves -/

section
variable {s : State} {ch : Chan} {tag : Tag}

theorem exec_issueEvent (hr : s.rst = false) : exec (.issueEvent ch) s = .next (s.issue ch) :=
  State.whileRunning_running hr (State.issue · ch)

/-- R131. -/
theorem Scrub.idleTag_eq_some {c : Scrub} (h : c.tags.get tag = none) (hl : ∀ u, u < tag → c.tags.get u ≠ none) :
    c.idleTag = some tag :=
  Table.find_eq_some_iff.mpr ⟨by simp [h], fun u hu => by simpa [Option.isSome_iff_ne_none] using hl u hu⟩

/-- R132: a ready verify claimant is served. -/
theorem State.issue_verify (hs : (s.link ch).state = .active) (ht : (s.scrub ch).idleTag = some tag) {j : Job}
    (hv : s.verifyReady ch = some j) : s.issue ch = s.verifyStep ch tag j := by
  simp [State.issue, State.linkActive, hs, ht, hv]

/-- R132: without a ready verify claimant a ready patrol is served. -/
theorem State.issue_patrol (hs : (s.link ch).state = .active) (ht : (s.scrub ch).idleTag = some tag)
    (hv : s.verifyReady ch = none) (hp : (s.scrub ch).patrol = .running ∨ (s.scrub ch).patrol = .draining)
    (hd : (s.scrub ch).stepDue = true) : s.issue ch = s.patrolStep ch tag := by
  simp [State.issue, State.linkActive, hs, ht, hv, State.patrolReady, hp, hd]

end

/-! ### The patrol step -/

/-- R129, R130, R133, R139: what the end of a patrol step makes of each field of a scrub context. -/
theorem Scrub.step_eq (c : Scrub) (g : Geometry) : c.step g = { c with
    cursor := (c.cursor.advance g).1
    stepDue := false
    pacingTimer := if (c.cursor.advance g).2 = true ∧ c.mode = .singlePass then none else some c.pacing
    passes := if (c.cursor.advance g).2 = true then c.passes + 1 else c.passes
    patrol := if (c.cursor.advance g).2 = true ∧ c.mode = .singlePass then .stopped
      else if c.patrol = .draining ∧ (c.cursor.advance g).1.row.val % c.segment = 0 then .held else c.patrol } := by
  unfold Scrub.step
  obtain ⟨k, complete⟩ := c.cursor.advance g
  dsimp only
  by_cases ended : complete = true ∧ c.mode = .singlePass
  · obtain ⟨full, single⟩ := ended
    simp [full, single, Scrub.stop, Scrub.segmentTest]
  · have going : (complete && decide (c.mode = .singlePass)) = false := by simpa using ended
    simp only [ended, going, Scrub.segmentTest]
    cases complete <;> simp <;> split <;> rfl

/-- R131: a request on a tag, in the scrub context of its channel. -/
theorem State.issueRequest_scrub (s : State) (ch : Chan) (tag : Tag) (kind : RequestKind) (rank : Rank) (bank : Bank) (row : Row)
    (x : Chan) : (s.issueRequest ch tag kind rank bank row).scrub x =
      if x = ch then
        { s.scrub ch with
          tags := (s.scrub ch).tags.set tag (some ⟨(s.scrub ch).nextNumber, kind, rank, bank, row, (s.scrub ch).replyTimeout⟩)
          nextNumber := (s.scrub ch).nextNumber + 1 }
      else s.scrub x := s.scrub_modScrub ch x _

/-- R133: the row at the cursor of a channel is skipped or requested. -/
def State.visited (s : State) (ch : Chan) (tag : Tag) : State :=
  let k := (s.scrub ch).cursor
  if (s.lookup ch k.rank k.bank k.row).isSome = true then
    s.modScrub ch (fun c => { c with counters := { c.counters with skippedRetired := satInc c.counters.skippedRetired } })
  else s.issueRequest ch tag .patrol k.rank k.bank k.row

section
variable {s : State} {ch : Chan} {tag : Tag}

theorem State.visited_retired
    (h : (s.lookup ch (s.scrub ch).cursor.rank (s.scrub ch).cursor.bank (s.scrub ch).cursor.row).isSome = true) :
    s.visited ch tag = s.modScrub ch (fun c =>
      { c with counters := { c.counters with skippedRetired := satInc c.counters.skippedRetired } }) := if_pos h

theorem State.visited_other
    (h : s.lookup ch (s.scrub ch).cursor.rank (s.scrub ch).cursor.bank (s.scrub ch).cursor.row = none) :
    s.visited ch tag =
      s.issueRequest ch tag .patrol (s.scrub ch).cursor.rank (s.scrub ch).cursor.bank (s.scrub ch).cursor.row :=
  if_neg (by simp [h])

/-- R133: the visit itself touches the tags, the next number and a counter of its channel, and the transmitter. -/
theorem State.visited_scrub (s : State) (ch : Chan) (tag : Tag) : (s.visited ch tag).scrub ch = { s.scrub ch with
    tags := ((s.visited ch tag).scrub ch).tags
    nextNumber := ((s.visited ch tag).scrub ch).nextNumber
    counters := ((s.visited ch tag).scrub ch).counters } := by
  unfold State.visited
  dsimp only
  split
  · rw [State.scrub_modScrub, if_pos rfl]
  · rw [State.issueRequest_scrub, if_pos rfl]

theorem State.visited_others {x : Chan} (hx : x ≠ ch) :
    (s.visited ch tag).scrub x = s.scrub x ∧ (s.visited ch tag).txs.get x = s.txs.get x := by
  unfold State.visited
  dsimp only
  split
  · exact ⟨Table.get_modify_ne _ _ hx, rfl⟩
  · exact ⟨Table.get_modify_ne _ _ hx, Table.get_modify_ne _ _ hx⟩

/-- R133: a patrol step is the visit and then the end of the step. -/
theorem State.patrolStep_eq (s : State) (ch : Chan) (tag : Tag) : s.patrolStep ch tag = { s with
    scrubs := (s.visited ch tag).scrubs.modify ch (fun c => c.step (s.geometry ch))
    txs := (s.visited ch tag).txs
    events := { s.events with flags :=
      if ((s.scrub ch).cursor.advance (s.geometry ch)).2 = true then s.events.flags ||| EventFlag.scrubPassDone.mask
      else s.events.flags } } := by
  unfold State.patrolStep State.visited
  dsimp only
  cases s.lookup ch (s.scrub ch).cursor.rank (s.scrub ch).cursor.bank (s.scrub ch).cursor.row <;>
    cases ((s.scrub ch).cursor.advance (s.geometry ch)).2 <;> rfl

theorem State.patrolStep_scrub (s : State) (ch : Chan) (tag : Tag) (x : Chan) : (s.patrolStep ch tag).scrub x =
    if x = ch then ((s.visited ch tag).scrub ch).step (s.geometry ch) else (s.visited ch tag).scrub x := by
  rw [State.patrolStep_eq]
  exact Table.get_modify _ _ _ _

end

/-- Settles O31: the issue event serves the patrol, whose step is the visit of the row at the cursor and the end of the step. -/
theorem patrolStepVisitsCursorRow : Obligations.PatrolStepVisitsCursorRow := by
  unfold Obligations.PatrolStepVisitsCursorRow
  intro ch tag s hr hs ht hl hv hp hd c k complete
  have served : exec (.issueEvent ch) s = .next (s.patrolStep ch tag) := by
    rw [exec_issueEvent hr, State.issue_patrol hs (Scrub.idleTag_eq_some ht hl) hv hp hd]
  have stepped := s.patrolStep_eq ch tag
  have txs : (s.patrolStep ch tag).txs = (s.visited ch tag).txs := (congrArg State.txs stepped :)
  have events := (congrArg State.events stepped :)
  have scrub := (s.patrolStep_scrub ch tag ch).trans (if_pos rfl)
  rw [s.visited_scrub ch tag, Scrub.step_eq] at scrub
  refine ⟨_, served, ?_, fun x hx => ⟨?_, ?_⟩, ?_, ?_, ?_, ?_, ?_, ?_, fun retired => ?_, fun other => ?_⟩
  · rw [stepped]
  · rw [State.patrolStep_scrub, if_neg hx, (State.visited_others hx).1]
  · rw [txs, (State.visited_others hx).2]
  · rw [scrub]
  · rw [scrub]
  · rw [scrub]
  · rw [events]
  · rw [events]
  · rw [scrub]
    by_cases ended : complete = true ∧ c.mode = .singlePass
    · exact (if_pos ended).mpr ⟨if_pos ended, if_pos ended⟩
    · exact (if_neg ended).mpr ⟨if_neg ended, if_neg ended⟩
  · rw [scrub, txs, State.visited_retired retired, State.scrub_modScrub, if_pos rfl]
    exact ⟨rfl, rfl, rfl, rfl⟩
  · rw [scrub, txs, State.visited_other other, State.issueRequest_scrub, if_pos rfl]
    exact ⟨rfl, rfl, rfl, congrArg Transmitter.waiting (Table.get_modify_self _ _ _)⟩

end Sys2Proof.Machine

/-! The verify step of an issue event (R132, R134, R152). -/

namespace Sys2Proof.Machine

section
variable {s : State} {ch : Chan} {tag : Tag} {j : Job} {rest : List Job} {l : ReadLoc}

/-- R132, R152: a head job with a read to issue, on a channel without a read record and without a hold. -/
theorem State.verifyReady_head (hj : s.verify.jobs = j :: rest) (hc : j.channel = ch) (hi : j.issued < j.reads)
    (hr : s.verify.records.get ch = none) (hh : (s.scrub ch).holdFlag = false) : s.verifyReady ch = some j := by
  simp [State.verifyReady, hj, hc, hi, hr, hh]

/-- R152: the read of a job outside every CONFIRMED range. -/
theorem State.verifyStep_issued (hl : j.location = some l) (hk : s.lookup ch l.rank l.bank l.row = none) :
    s.verifyStep ch tag j =
      ((s.issueRequest ch tag .verify l.rank l.bank l.row).setRecord ch (some ⟨tag, (s.scrub ch).nextNumber, true⟩)).setJobs
        ({ j with issued := j.issued + 1 } :: s.verify.jobs.tail) := by
  simp only [State.verifyStep, hl, hk]

/-- R152: the read of a job inside a CONFIRMED range. -/
theorem State.verifyStep_retired (hl : j.location = some l) (hk : (s.lookup ch l.rank l.bank l.row).isSome = true) :
    s.verifyStep ch tag j = s.abortJob .retired j.cet := by
  obtain ⟨i, hk⟩ := Option.isSome_iff_exists.mp hk
  simp only [State.verifyStep, hl, hk]

/-- R156: the abort of the head job leaves its entry IDLE, if no other job is one of the entry. -/
theorem State.abortJob_head_entry (r : AbortReason) (hj : s.verify.jobs = j :: rest) (hn : j.cet ∉ rest.map Job.cet) :
    (s.abortJob r j.cet).entry j.cet = (s.entry j.cet).map (fun e => { e with status := .idle }) := by
  rw [State.abortJob_head r hj, makeHead_entry_of_not_mem _ _ _ hn]
  exact (s.entry_setStatus j.cet j.cet .idle).trans (by simp)

end

/-- Settles O33: the issue event serves the verify claimant, whose step is the request or the abort of the head job. -/
theorem verifyReadServedFirst : Obligations.VerifyReadServedFirst := by
  unfold Obligations.VerifyReadServedFirst
  intro ch tag j rest l s hr hs ht hlow hj hc hi hrec hh hl c
  have served : exec (.issueEvent ch) s = .next (s.verifyStep ch tag j) := by
    rw [exec_issueEvent hr, State.issue_verify hs (Scrub.idleTag_eq_some ht hlow) (State.verifyReady_head hj hc hi hrec hh)]
  refine ⟨fun outside => ?_, fun inside law => ?_⟩
  · rw [served, State.verifyStep_issued hl outside, hj]
    rfl
  · obtain ⟨-, nodup, valid, -⟩ := law
    have fresh : j.cet ∉ rest.map Job.cet := by
      rw [hj] at nodup
      exact (List.nodup_cons.mp nodup).1
    obtain ⟨e, he, -⟩ := valid j (hj ▸ List.mem_cons_self)
    have tables := s.abortJob_tables .retired j.cet
    have entry := State.abortJob_head_entry .retired hj fresh
    rw [he] at entry
    rw [served, State.verifyStep_retired hl inside]
    refine ⟨_, rfl, tables.scrubs, tables.txs, State.abortJob_not_mem .retired j.cet nodup,
      State.abortJob_flagged .retired (hj ▸ List.mem_cons_self), ?_, ?_, fun last => ?_⟩
    · rw [entry]; rfl
    · rw [entry, he]; rfl
    · rw [State.abortJob_head .retired hj, last]; rfl

end Sys2Proof.Machine

/-! The expiries of a scrub context: the hold ceiling, the pacing timer and the reply timers (R130, R136, R137, R140). -/

namespace Sys2Proof.Machine

/-! ### The hold ceiling and the pacing timer -/

section
variable {s : State} {ch : Chan}

theorem exec_holdCeilingExpiry (hr : s.rst = false) : exec (.holdCeilingExpiry ch) s = .next
    (if (s.scrub ch).ceilingTimer = some 0 then (s.modScrub ch Scrub.release).setFlag .holdOverrun else s) := by
  refine (State.whileRunning_running hr _).trans ?_
  simp only [Timer.expired, beq_iff_eq]

theorem exec_pacingExpiry (hr : s.rst = false) : exec (.pacingExpiry ch) s = .next
    (if (s.scrub ch).pacingTimer = some 0 then s.modScrub ch (fun c => { c with stepDue := true, pacingTimer := none })
    else s) := by
  refine (State.whileRunning_running hr _).trans ?_
  simp only [Timer.expired, beq_iff_eq]

end

/-! ### The reply timers -/

/-- R136: a PATROL request that times out counts its row too. -/
def Scrub.patrolTimedOut (c : Scrub) (tag : Tag) : Scrub :=
  { c.timedOut tag with counters := { (c.timedOut tag).counters with skippedFailed := satInc c.counters.skippedFailed } }

/-- R104, R136: the reply timer of a PATROL request has expired. -/
def State.patrolTimedOut (s : State) (ch : Chan) (tag : Tag) : State :=
  { s with
    scrubs := s.scrubs.modify ch (fun c => c.patrolTimedOut tag)
    txs := s.txs.modify ch (fun t => t.withdrawRequest tag) }

section
variable {s : State} {ch : Chan} {tag : Tag} {q : Request}

theorem exec_replyTimeout (hr : s.rst = false) (hq : (s.scrub ch).tags.get tag = some q) (h0 : q.timer = 0) :
    exec (.replyTimeout ch tag) s = .next (s.replyExpiry ch tag q) := by
  show execReplyTimeout ch tag s = _
  rw [execReplyTimeout, State.whileRunning_running hr]
  simp only [hq, h0, if_true]

theorem exec_replyTimeout_idle (hr : s.rst = false) (h : ∀ q, (s.scrub ch).tags.get tag = some q → q.timer ≠ 0) :
    exec (.replyTimeout ch tag) s = .next s := by
  show execReplyTimeout ch tag s = _
  rw [execReplyTimeout, State.whileRunning_running hr]
  refine congrArg _ ?_
  split
  · rfl
  · next q hq => exact if_neg (h q hq)

/-- R137: the third timeout in a row fails the link. -/
theorem State.replyExpiry_third (h : (s.scrub ch).timeoutRun = 2) :
    s.replyExpiry ch tag q = ((s.timedOut ch tag).giveUp ch tag q).failLink ch := by
  rw [State.replyExpiry_eq, if_pos (by rw [h]; decide)]

theorem State.replyExpiry_below (h : (s.scrub ch).timeoutRun ≤ 1) :
    s.replyExpiry ch tag q = (s.timedOut ch tag).giveUp ch tag q := by
  rw [State.replyExpiry_eq, if_neg (by simp only [Config.timeoutLimit]; omega)]

theorem State.giveUp_patrol (s : State) (ch : Chan) (tag : Tag) (hk : q.kind = .patrol) :
    (s.timedOut ch tag).giveUp ch tag q = s.patrolTimedOut ch tag := by
  unfold State.giveUp
  rw [hk]
  exact congrArg (fun scrubs => ({ s with
    scrubs := scrubs
    txs := s.txs.modify ch (fun t => t.withdrawRequest tag) } : State))
    (s.scrubs.modify_modify ch (fun c => c.timedOut tag)
      (fun c => { c with counters := { c.counters with skippedFailed := satInc c.counters.skippedFailed } }))

theorem State.giveUp_verify (s : State) (ch : Chan) (tag : Tag) (hk : q.kind = .verify) :
    s.giveUp ch tag q = s.endRead ch tag q.number (some .noAnswer) := by
  unfold State.giveUp
  rw [hk]

theorem State.patrolTimedOut_scrub (s : State) (ch : Chan) (tag : Tag) (x : Chan) :
    (s.patrolTimedOut ch tag).scrub x = if x = ch then (s.scrub ch).patrolTimedOut tag else s.scrub x :=
  Table.get_modify _ _ _ _

/-- R147: a PATROL request has no read record, so that its end keeps the law of records. -/
theorem State.RecordLaw.patrolTimedOut (law : s.RecordLaw) (hq : (s.scrub ch).tags.get tag = some q) (hk : q.kind = .patrol) :
    (s.patrolTimedOut ch tag).RecordLaw := by
  intro x u number
  refine Iff.trans (exists_congr fun r => and_congr_left fun ⟨verify, _⟩ => ?_) (law x u number)
  rw [State.patrolTimedOut_scrub]
  by_cases hx : x = ch
  · subst hx
    have tags : ((s.scrub x).patrolTimedOut tag).tags.get u = if u = tag then none else (s.scrub x).tags.get u :=
      Table.get_set _ _ _ _
    rw [if_pos rfl, tags]
    split
    · next hu =>
      refine iff_of_false nofun fun hr => ?_
      obtain rfl : q = r := Option.some.inj (hq.symm.trans (hu ▸ hr))
      exact absurd (hk.symm.trans verify) nofun
    · rfl
  · rw [if_neg hx]

/-- R137: a departure at a timeout, told from the state before the timeout. -/
theorem Departed.of_patrolTimedOut {t : State} (h : Departed (s.patrolTimedOut ch tag) t ch)
    (hq : (s.scrub ch).tags.get tag = some q) (hk : q.kind = .patrol) : Departed s t ch := by
  have self : (s.patrolTimedOut ch tag).scrub ch = (s.scrub ch).patrolTimedOut tag :=
    (s.patrolTimedOut_scrub ch tag ch).trans (if_pos rfl)
  have patrol := h.patrol
  have context := h.context
  rw [self] at patrol context
  refine { h with
    patrol := patrol, context := context, record := fun law => h.record (law.patrolTimedOut hq hk)
    aborted := fun j rest hj hc => ?_, others := fun c hc => ?_ }
  · obtain ⟨change, records⟩ := h.aborted j rest hj hc
    exact ⟨change.of_same rfl rfl rfl, records⟩
  · obtain ⟨link, tx, scrub, record⟩ := h.others c hc
    exact ⟨link, tx.trans (Table.get_modify_ne _ _ hc), scrub.trans (Table.get_modify_ne _ _ hc), record⟩

end

/-- Settles O28: the two timers of the patrol by their updates, a reply timer by the kind of its request and the run of timeouts. -/
theorem scrubContextExpiries : Obligations.ScrubContextExpiries := by
  unfold Obligations.ScrubContextExpiries
  refine ⟨fun ch s hr => ?_, fun ch tag s hr => ⟨fun q hq h0 hk => ?_, fun q hq h0 hk below => ?_, fun q hq h0 hk third => ?_,
    fun idle => exec_replyTimeout_idle hr idle⟩⟩
  · rw [exec_holdCeilingExpiry hr, exec_pacingExpiry hr]
    exact ⟨fun h => congrArg _ (if_pos h), fun h => congrArg _ (if_neg h), fun h => congrArg _ (if_pos h),
      fun h => congrArg _ (if_neg h)⟩
  · intro counted
    rw [exec_replyTimeout hr hq h0]
    refine ⟨fun below => ?_, fun third => ?_⟩
    · rw [State.replyExpiry_below below, s.giveUp_patrol ch tag hk]
      rfl
    · rw [State.replyExpiry_third third, s.giveUp_patrol ch tag hk]
      obtain ⟨departed, link, -, scrub, queues⟩ := (s.patrolTimedOut ch tag).departActive_departed ch .failed nofun
      rw [State.patrolTimedOut_scrub, if_pos rfl, Scrub.abandon_eq] at scrub
      exact ⟨_, rfl, departed.of_patrolTimedOut hq hk, congrArg Link.state link, congrArg Scrub.counters scrub, queues⟩
  · rw [exec_replyTimeout hr hq h0, State.replyExpiry_below below, State.giveUp_verify _ ch tag hk]
    rfl
  · intro told
    have tables : TablesOnly (s.timedOut ch tag) told := State.endRead_tables _ ch tag q.number _
    rw [exec_replyTimeout hr hq h0, State.replyExpiry_third third, State.giveUp_verify _ ch tag hk]
    obtain ⟨departed, link, -, scrub, queues⟩ := told.departActive_departed ch .failed nofun
    have timed : (s.timedOut ch tag).scrub ch = (s.scrub ch).timedOut tag := Table.get_modify_self _ _ _
    rw [tables.scrub, timed, Scrub.abandon_eq] at scrub
    exact ⟨_, rfl, departed, congrArg Link.state link, queues.trans tables.queues, congrArg Scrub.counters scrub⟩

end Sys2Proof.Machine

/-! What the laws of the verify queue, of the read records, of the geometries and of the purge read of a state, and these laws as ones of
a queue whose head stands apart from the jobs behind it (R3, R9, R31, R61, R147, R148, R151). -/

namespace Sys2Proof.Machine

/-! ### What the laws read -/

/-- R13: the key, the last row and the verify status of a CET entry. -/
structure Cell where
  key    : Key
  row    : Row
  status : VerifyStatus

def CetEntry.cell (e : CetEntry) : Cell := ⟨e.key, e.lastRow, e.status⟩

/-- R42: the range and the state of a retirement entry. -/
structure Extent where
  range : Range
  state : RetState

def RetEntry.extent (a : RetEntry) : Extent := ⟨a.range, a.state⟩

/-- R131: a request without its timer. -/
structure Ask where
  number : BitVec 8
  kind   : RequestKind
  rank   : Rank
  bank   : Bank
  row    : Row

def Request.ask (q : Request) : Ask := ⟨q.number, q.kind, q.rank, q.bank, q.row⟩

/-- What the laws of the verify queue, of the geometries and of the purge read of a state. -/
structure Core where
  cells    : CetIdx → Option Cell
  ranges   : RetIdx → Option Extent
  purge    : Option Purge
  jobs     : List Job
  records  : Chan → Option ReadRecord
  reads    : Nat
  persist  : Nat
  active   : Chan → Bool
  geometry : Chan → Geometry
  cursor   : Chan → Cursor
  asks     : Chan → Tag → Option Ask

def State.core (s : State) : Core where
  cells i     := (s.entry i).map CetEntry.cell
  ranges j    := (s.retired j).map RetEntry.extent
  purge       := s.engine.purge
  jobs        := s.verify.jobs
  records ch  := s.verify.records.get ch
  reads       := s.verify.reads
  persist     := s.verify.persist
  active      := s.linkActive
  geometry    := s.geometry
  cursor ch   := (s.scrub ch).cursor
  asks ch tag := ((s.scrub ch).tags.get tag).map Request.ask

/-! ### The laws -/

/-- R9: an entry is within a geometry. -/
def Cell.fits (e : Cell) (g : Geometry) : Bool := e.key.within g && decide (e.row.val < g.rows)

/-- R3, R9, R46, R61, R127: the laws of the geometries and of the purge, but for the locations of the jobs. -/
structure Core.Placed (c : Core) : Prop where
  allowed : ∀ ch, (c.geometry ch).allowed = true
  cursor  : ∀ ch, (c.geometry ch).admits (c.cursor ch).rank (c.cursor ch).bank (c.cursor ch).row = true
  asks    : ∀ ch tag q, c.asks ch tag = some q → (c.geometry ch).admits q.rank q.bank q.row = true
  cells   : ∀ i e, c.cells i = some e → e.fits (c.geometry e.key.channel) = true
  ranges  : ∀ j a, c.ranges j = some a → a.range.wellFormed (c.geometry a.range.channel) = true
  purged  : ∀ i e j a, c.cells i = some e → c.ranges j = some a → a.state = .confirmed →
    e.key.inside a.range (c.geometry e.key.channel) = true → ∃ g, c.purge = some g ∧ g.serves = j ∧ g.next ≤ i.val

/-- R147: a channel's record names the one request of kind VERIFY that is outstanding on it. -/
def Core.Recorded (c : Core) : Prop :=
  ∀ ch tag number, (∃ q, c.asks ch tag = some q ∧ q.kind = .verify ∧ q.number = number) ↔
    (∃ r, c.records ch = some r ∧ r.tag = tag ∧ r.number = number)

/-- R149. -/
def ReadBounds (reads persist : Nat) : Prop := 1 ≤ persist ∧ persist ≤ reads ∧ reads ≤ 15

/-- R31: the verify status of an entry by its place in the queue. -/
def statusOf (head : Option Job) (rest : List Job) (i : CetIdx) : VerifyStatus :=
  if head.map Job.cet = some i then .running else if i ∈ rest.map Job.cet then .queued else .idle

/-- R31, R147, R148, R151: the laws of a queue with the head given, if it has one, and the jobs behind it, but for what holds of the head
by its link and its reads. The job list of the queue takes no part. -/
structure Core.Queued (c : Core) (head : Option Job) (rest : List Job) : Prop where
  placed   : c.Placed
  recorded : c.Recorded
  settings : ReadBounds c.reads c.persist
  room     : head.toList.length + rest.length ≤ 8
  nodup    : ((head.toList ++ rest).map Job.cet).Nodup
  known    : ∀ j ∈ head.toList ++ rest, ∃ e, c.cells j.cet = some e ∧ e.key.channel = j.channel
  bounds   : ∀ j ∈ head.toList ++ rest, ReadBounds j.reads j.persist
  status   : ∀ i e, c.cells i = some e → e.status = statusOf head rest i
  fresh    : ∀ j ∈ rest, j.location = none ∧ j.issued = 0 ∧ j.counted = 0
  located  : ∀ j ∈ head, ∃ l, j.location = some l ∧ (c.geometry j.channel).admits l.rank l.bank l.row = true
  owner    : ∀ ch r, c.records ch = some r → r.owned = true → ∃ j ∈ head, j.channel = ch

/-- R148, R151: the link of the head is ACTIVE, it has issued one read more than it has counted while it owns a record, and it has not
counted all its reads. -/
structure Core.Live (c : Core) (j : Job) : Prop where
  active  : c.active j.channel = true
  issued  : j.issued = j.counted + ((c.records j.channel).any ReadRecord.owned).toNat
  counted : j.counted < j.reads

/-- The laws of a queue. -/
structure Core.Sound (c : Core) : Prop where
  queued : c.Queued c.jobs.head? c.jobs.tail
  live   : ∀ j ∈ c.jobs.head?, c.Live j

/-! ### The laws of a state -/

theorem toList_head_append_tail {α : Type} (l : List α) : l.head?.toList ++ l.tail = l := by cases l <;> rfl

section
variable {s : State}

theorem State.core_cells_eq_some {i : CetIdx} {x : Cell} :
    s.core.cells i = some x ↔ ∃ e, s.entry i = some e ∧ e.cell = x := Option.map_eq_some_iff

theorem State.core_ranges_eq_some {j : RetIdx} {x : Extent} :
    s.core.ranges j = some x ↔ ∃ a, s.retired j = some a ∧ a.extent = x := Option.map_eq_some_iff

theorem State.core_asks_eq_some {ch : Chan} {tag : Tag} {x : Ask} :
    s.core.asks ch tag = some x ↔ ∃ q, (s.scrub ch).tags.get tag = some q ∧ q.ask = x := Option.map_eq_some_iff

theorem State.core_active {ch : Chan} : s.core.active ch = true ↔ (s.link ch).state = .active := by
  simp [State.core, State.linkActive]

theorem State.core_recorded : s.core.Recorded ↔ s.RecordLaw := by
  refine forall_congr' fun ch => forall_congr' fun tag => forall_congr' fun number => iff_congr ?_ .rfl
  constructor
  · rintro ⟨x, hx, hk, hn⟩
    obtain ⟨q, hq, rfl⟩ := State.core_asks_eq_some.mp hx
    exact ⟨q, hq, hk, hn⟩
  · rintro ⟨q, hq, hk, hn⟩
    exact ⟨q.ask, State.core_asks_eq_some.mpr ⟨q, hq, rfl⟩, hk, hn⟩

theorem State.core_placed (geometry : s.GeometryLaw) (purge : s.PurgeLaw) : s.core.Placed := by
  obtain ⟨channels, cells, ranges, -⟩ := geometry
  constructor
  · exact fun ch => (channels ch).1
  · exact fun ch => (channels ch).2.1
  · intro ch tag x hx
    obtain ⟨q, hq, rfl⟩ := State.core_asks_eq_some.mp hx
    exact (channels ch).2.2 tag q hq
  · intro i x hx
    obtain ⟨e, he, rfl⟩ := State.core_cells_eq_some.mp hx
    exact cells i e he
  · intro j x hx
    obtain ⟨a, ha, rfl⟩ := State.core_ranges_eq_some.mp hx
    exact ranges j a ha
  · intro i x j y hx hy hc hin
    obtain ⟨e, he, rfl⟩ := State.core_cells_eq_some.mp hx
    obtain ⟨a, ha, rfl⟩ := State.core_ranges_eq_some.mp hy
    exact purge i e j a he ha hc hin

/-- R31: the two statuses that a job gives its entry, and IDLE. -/
theorem statusOf_iff {head : Option Job} {rest : List Job} (hn : ((head.toList ++ rest).map Job.cet).Nodup) {i : CetIdx}
    {v : VerifyStatus} : v = statusOf head rest i ↔
      (v = .running ↔ head.map Job.cet = some i) ∧ (v = .queued ↔ i ∈ rest.map Job.cet) := by
  have apart : head.map Job.cet = some i → i ∉ rest.map Job.cet := by
    rintro hh
    obtain ⟨j, rfl, rfl⟩ := Option.map_eq_some_iff.mp hh
    exact (List.nodup_cons.mp hn).1
  unfold statusOf
  by_cases hh : head.map Job.cet = some i
  · cases v <;> simp [hh, apart hh]
  · by_cases hr : i ∈ rest.map Job.cet <;> cases v <;> simp [hh, hr]

/-- The laws that the statement speaks of are those of the core. -/
theorem State.Lawful.sound (law : s.Lawful) : s.core.Sound := by
  obtain ⟨room, nodup, known, status, live, behind⟩ := law.queue
  obtain ⟨head, waiting, bounds, owner⟩ := law.reads
  have split : s.core.jobs.head?.toList ++ s.core.jobs.tail = s.verify.jobs := toList_head_append_tail _
  have nodup' : ((s.core.jobs.head?.toList ++ s.core.jobs.tail).map Job.cet).Nodup := split ▸ nodup
  refine ⟨⟨State.core_placed law.geometry law.purge, State.core_recorded.mpr law.record, law.settings.2.2.2.2.2.1, ?_, nodup',
    fun j hj => ?_, fun j hj => ?_, fun i x hx => ?_, fun j hj => ?_, fun j hj => ?_, fun ch r hr ho => ?_⟩,
    fun j hj => ⟨State.core_active.mpr (live j hj).1, (head j hj).1, (head j hj).2⟩⟩
  · rw [← List.length_append, split]
    exact room
  · obtain ⟨e, he, hk⟩ := known j (split ▸ hj)
    exact ⟨e.cell, State.core_cells_eq_some.mpr ⟨e, he, rfl⟩, hk⟩
  · exact bounds j (split ▸ hj)
  · obtain ⟨e, he, rfl⟩ := State.core_cells_eq_some.mp hx
    exact (statusOf_iff nodup').mpr (status i e he)
  · exact ⟨behind j hj, waiting j hj⟩
  · obtain ⟨l, hl⟩ := Option.isSome_iff_exists.mp (live j hj).2
    exact ⟨l, hl, law.geometry.2.2.2 j (List.mem_of_head? hj) l hl⟩
  · exact owner ch r hr ho

theorem Core.Sound.laws (h : s.core.Sound) :
    (s.QueueLaw ∧ s.RecordLaw ∧ s.ReadsLaw) ∧ s.GeometryLaw ∧ s.PurgeLaw := by
  obtain ⟨h, live⟩ := h
  have split : s.core.jobs.head?.toList ++ s.core.jobs.tail = s.verify.jobs := toList_head_append_tail _
  refine ⟨⟨⟨?_, ?_, fun j hj => ?_, fun i e he => ?_, fun j hj => ?_, fun j hj => (h.fresh j hj).1⟩,
    State.core_recorded.mp h.recorded,
    ⟨fun j hj => ⟨(live j hj).issued, (live j hj).counted⟩, fun j hj => (h.fresh j hj).2, fun j hj => ?_, h.owner⟩⟩,
    ⟨fun ch => ⟨h.placed.allowed ch, h.placed.cursor ch, fun tag q hq => ?_⟩, fun i e he => ?_, fun i a ha => ?_,
      fun j hj l hl => ?_⟩, fun i e j a he ha hc hin => ?_⟩
  · have room := h.room
    rwa [← List.length_append, split] at room
  · exact split ▸ h.nodup
  · obtain ⟨x, hx, hk⟩ := h.known j (split.symm ▸ hj)
    obtain ⟨e, he, rfl⟩ := State.core_cells_eq_some.mp hx
    exact ⟨e, he, hk⟩
  · exact (statusOf_iff h.nodup).mp (h.status i e.cell (State.core_cells_eq_some.mpr ⟨e, he, rfl⟩))
  · obtain ⟨l, hl, -⟩ := h.located j hj
    exact ⟨State.core_active.mp (live j hj).active, by rw [hl]; rfl⟩
  · exact h.bounds j (split.symm ▸ hj)
  · exact h.placed.asks ch tag q.ask (State.core_asks_eq_some.mpr ⟨q, hq, rfl⟩)
  · exact h.placed.cells i e.cell (State.core_cells_eq_some.mpr ⟨e, he, rfl⟩)
  · exact h.placed.ranges i a.extent (State.core_ranges_eq_some.mpr ⟨a, ha, rfl⟩)
  · rcases List.mem_append.mp (split.symm ▸ hj) with hj | hj
    · obtain ⟨l', hl', admits⟩ := h.located j (Option.mem_toList.mp hj)
      obtain rfl : l = l' := Option.some.inj (hl.symm.trans hl')
      exact admits
    · exact absurd (hl.symm.trans (h.fresh j hj).1) nofun
  · exact h.placed.purged i e.cell j a.extent (State.core_cells_eq_some.mpr ⟨e, he, rfl⟩)
      (State.core_ranges_eq_some.mpr ⟨a, ha, rfl⟩) hc hin

end

end Sys2Proof.Machine

/-! How the laws of a queue bear the changes of it: jobs that leave it, join it and become its head, and reads that are issued and end
(R148, R150, R151, R153, R156). -/

namespace Sys2Proof.Machine

/-- R148: the location that a job takes from its entry. -/
def Cell.readLoc (e : Cell) : ReadLoc := ⟨e.key.rank, e.key.bank, e.row⟩

def Core.setCell (c : Core) (i : CetIdx) (x : Option Cell) : Core := { c with cells := Function.update c.cells i x }

def Core.setStatus (c : Core) (i : CetIdx) (v : VerifyStatus) : Core :=
  c.setCell i ((c.cells i).map fun e => { e with status := v })

def Core.setJobs (c : Core) (jobs : List Job) : Core := { c with jobs := jobs }

def Core.setRecord (c : Core) (ch : Chan) (r : Option ReadRecord) : Core := { c with records := Function.update c.records ch r }

def Core.setAsks (c : Core) (ch : Chan) (asks : Tag → Option Ask) : Core := { c with asks := Function.update c.asks ch asks }

def Core.setCursor (c : Core) (ch : Chan) (k : Cursor) : Core := { c with cursor := Function.update c.cursor ch k }

def Core.setGeometry (c : Core) (ch : Chan) (g : Geometry) : Core := { c with geometry := Function.update c.geometry ch g }

def Core.setActive (c : Core) (ch : Chan) (b : Bool) : Core := { c with active := Function.update c.active ch b }

def Core.setRange (c : Core) (j : RetIdx) (x : Option Extent) : Core := { c with ranges := Function.update c.ranges j x }

section
variable {c : Core}

theorem Core.setRecord_records (ch d : Chan) (r : Option ReadRecord) :
    (c.setRecord ch r).records d = if d = ch then r else c.records d := Function.update_apply ..

theorem Core.setAsks_asks (ch d : Chan) (asks : Tag → Option Ask) :
    (c.setAsks ch asks).asks d = if d = ch then asks else c.asks d := Function.update_apply ..

theorem Core.setActive_active (ch d : Chan) (b : Bool) : (c.setActive ch b).active d = if d = ch then b else c.active d :=
  Function.update_apply ..

/-! ### Places -/

/-- Entries that stay under their keys, within the geometry. -/
theorem Core.Placed.entries (h : c.Placed) {cells : CetIdx → Option Cell}
    (hc : ∀ i f, cells i = some f → ∃ e, c.cells i = some e ∧ f.key = e.key ∧
      f.fits (c.geometry f.key.channel) = true) : Core.Placed { c with cells := cells } where
  allowed := h.allowed
  cursor := h.cursor
  asks := h.asks
  cells i f hf := by
    obtain ⟨e, -, -, fits⟩ := hc i f hf
    exact fits
  ranges := h.ranges
  purged i f j a hf ha ht hin := by
    obtain ⟨e, he, hk, -⟩ := hc i f hf
    exact h.purged i e j a he ha ht (hk ▸ hin)

/-- An entry that is freed, or that changes its verify status. -/
theorem Core.Placed.setCell (h : c.Placed) {i : CetIdx} {x : Option Cell}
    (hx : ∀ f, x = some f → ∃ e v, c.cells i = some e ∧ f = { e with status := v }) : (c.setCell i x).Placed := by
  refine h.entries fun k f hf => ?_
  by_cases hk : k = i
  · subst hk
    rw [Function.update_self] at hf
    obtain ⟨e, v, he, rfl⟩ := hx f hf
    exact ⟨e, he, rfl, h.cells k e he⟩
  · rw [Function.update_of_ne hk] at hf
    exact ⟨f, hf, rfl, h.cells k f hf⟩

theorem Core.Placed.setStatus (h : c.Placed) (i : CetIdx) (v : VerifyStatus) : (c.setStatus i v).Placed :=
  h.setCell fun f hf => by
    obtain ⟨e, he, rfl⟩ := Option.map_eq_some_iff.mp hf
    exact ⟨e, v, he, rfl⟩

/-- R148: the location that an entry gives lies within the geometry of its channel. -/
theorem Core.Placed.readLoc (h : c.Placed) {i : CetIdx} {e : Cell} (he : c.cells i = some e) :
    (c.geometry e.key.channel).admits e.readLoc.rank e.readLoc.bank e.readLoc.row = true := by
  have fits := h.cells i e he
  simp only [Cell.fits, Key.within, Bool.and_eq_true, decide_eq_true_eq] at fits
  obtain ⟨⟨⟨rank, bank⟩, -⟩, row⟩ := fits
  exact Geometry.admits_iff.mpr ⟨rank, bank, row⟩

/-! ### Jobs that leave the queue -/

section
variable {head : Option Job} {rest : List Job}

/-- R31: the statuses once no job of an entry is left. -/
theorem statusOf_filter (i k : CetIdx) :
    statusOf (head.filter fun j => j.cet != i) (rest.filter fun j => j.cet != i) k =
      if k = i then .idle else statusOf head rest k := by
  have inHead : (head.filter fun j => j.cet != i).map Job.cet = some k ↔ head.map Job.cet = some k ∧ k ≠ i := by
    cases head with
    | none => simp
    | some j =>
      by_cases hj : j.cet = i
      · simp [Option.filter, ← hj, eq_comm]
      · simp only [Option.filter, bne_iff_ne, ne_eq, hj, not_false_eq_true, if_true, Option.map_some, Option.some.injEq]
        exact ⟨fun h => ⟨h, h ▸ hj⟩, And.left⟩
  have inRest : k ∈ (rest.filter fun j => j.cet != i).map Job.cet ↔ k ∈ rest.map Job.cet ∧ k ≠ i := by
    simp only [List.mem_map, List.mem_filter, bne_iff_ne]
    constructor
    · rintro ⟨j, ⟨hj, hne⟩, rfl⟩
      exact ⟨⟨j, hj, rfl⟩, hne⟩
    · rintro ⟨⟨j, hj, rfl⟩, hne⟩
      exact ⟨j, ⟨hj, hne⟩, rfl⟩
  unfold statusOf
  by_cases hk : k = i
  · rw [if_pos hk, if_neg fun h => (inHead.mp h).2 hk, if_neg fun h => (inRest.mp h).2 hk]
  · simp only [inHead, inRest, ne_eq, hk, not_false_eq_true, and_true, if_false]

theorem toList_filter_append (p : Job → Bool) :
    (head.filter p).toList ++ rest.filter p = (head.toList ++ rest).filter p := by
  rw [List.filter_append]
  cases head with
  | none => rfl
  | some j => by_cases hp : p j = true <;> simp [Option.filter, hp]

/-- R28, R156: the jobs of an entry leave the queue, and the entry is freed or becomes IDLE. A head among them owns no record any
more. -/
theorem Core.Queued.cut (h : c.Queued head rest) {i : CetIdx} {x : Option Cell}
    (hx : ∀ f, x = some f → ∃ e, c.cells i = some e ∧ f = { e with status := .idle })
    (ho : ∀ j ∈ head, j.cet = i → ∀ r, c.records j.channel = some r → r.owned = false) :
    (c.setCell i x).Queued (head.filter fun j => j.cet != i) (rest.filter fun j => j.cet != i) where
  placed := h.placed.setCell fun f hf => (hx f hf).imp fun e he => ⟨.idle, he⟩
  recorded := h.recorded
  settings := h.settings
  room := by
    rw [← List.length_append, toList_filter_append]
    exact (List.length_filter_le _ _).trans (by simpa using h.room)
  nodup := by
    rw [toList_filter_append]
    exact h.nodup.sublist (List.filter_sublist.map Job.cet)
  known j hj := by
    rw [toList_filter_append, List.mem_filter, bne_iff_ne] at hj
    obtain ⟨hj, hne⟩ := hj
    obtain ⟨e, he, hk⟩ := h.known j hj
    exact ⟨e, (Function.update_of_ne hne _ _).trans he, hk⟩
  bounds j hj := by
    rw [toList_filter_append] at hj
    exact h.bounds j (List.mem_of_mem_filter hj)
  status k f hf := by
    rw [statusOf_filter]
    by_cases hk : k = i
    · subst hk
      have cell : (c.setCell k x).cells k = x := Function.update_self ..
      obtain ⟨e, -, rfl⟩ := hx f (cell.symm.trans hf)
      rw [if_pos rfl]
    · rw [if_neg hk]
      exact h.status k f ((Function.update_of_ne hk _ _).symm.trans hf)
  fresh j hj := h.fresh j (List.mem_of_mem_filter hj)
  located j hj := h.located j (Option.filter_eq_some_iff.mp hj).1
  owner ch r hr hown := by
    obtain ⟨j, hj, rfl⟩ := h.owner ch r hr hown
    have stays : j.cet ≠ i := fun hi => by simp [ho j hj hi r hr] at hown
    exact ⟨j, Option.filter_eq_some_iff.mpr ⟨hj, by simpa using stays⟩, rfl⟩

/-- R31: an entry with no job is IDLE, and only such an entry. -/
theorem Core.Queued.idle_iff (h : c.Queued head rest) {i : CetIdx} {e : Cell} (he : c.cells i = some e) :
    e.status = .idle ↔ i ∉ (head.toList ++ rest).map Job.cet := by
  rw [h.status i e he, statusOf, List.map_append, List.mem_append, not_or]
  have inHead : i ∈ head.toList.map Job.cet ↔ head.map Job.cet = some i := by cases head <;> simp [eq_comm]
  rw [inHead]
  by_cases hh : head.map Job.cet = some i
  · simp [hh]
  · by_cases hr : i ∈ rest.map Job.cet <;> simp [hh, hr]

/-- Nothing is filtered from a queue without a job of the entry. -/
theorem filter_of_not_mem {jobs : List Job} {i : CetIdx} (h : i ∉ jobs.map Job.cet) :
    jobs.filter (fun j => j.cet != i) = jobs :=
  List.filter_eq_self.mpr fun j hj => by
    rw [bne_iff_ne]
    rintro rfl
    exact h (List.mem_map_of_mem hj)

/-- R31: no other job is one of the head's entry. -/
theorem Core.Queued.head_fresh {j : Job} (h : c.Queued (some j) rest) : j.cet ∉ rest.map Job.cet :=
  (List.nodup_cons.mp h.nodup).1

/-- R28: the free of an IDLE entry, which has no job. -/
theorem Core.Queued.free (h : c.Queued head rest) {i : CetIdx} (hi : i ∉ (head.toList ++ rest).map Job.cet) :
    (c.setCell i none).Queued head rest := by
  rw [List.map_append, List.mem_append, not_or] at hi
  obtain ⟨hh, hr⟩ := hi
  have cut := h.cut (i := i) (x := none) nofun fun j hj hji => absurd (hji ▸ List.mem_map_of_mem (Option.mem_toList.mpr hj)) hh
  have stays : head.filter (fun j => j.cet != i) = head := by
    cases head with
    | none => rfl
    | some j =>
      have hj : j.cet ≠ i := fun hji => hh (by simp [hji])
      simp [Option.filter, hj]
  rwa [stays, filter_of_not_mem hr] at cut

/-! ### What the laws of a queue do not read -/

theorem Core.Queued.setJobs (h : c.Queued head rest) (jobs : List Job) : (c.setJobs jobs).Queued head rest :=
  { h with placed := { h.placed with } }

/-- R156: a record without its owner. -/
theorem Core.Queued.orphan (h : c.Queued head rest) (ch : Chan) :
    (c.setRecord ch ((c.records ch).map fun r => { r with owned := false })).Queued head rest where
  placed := { h.placed with }
  recorded d tag number := by
    refine (h.recorded d tag number).trans ?_
    by_cases hd : d = ch
    · subst hd
      simp only [Core.setRecord, Function.update_self]
      cases c.records d <;> simp
    · simp only [Core.setRecord, Function.update_of_ne hd]
  settings := h.settings
  room := h.room
  nodup := h.nodup
  known := h.known
  bounds := h.bounds
  status := h.status
  fresh := h.fresh
  located := h.located
  owner d r hr ho := by
    by_cases hd : d = ch
    · subst hd
      simp only [Core.setRecord, Function.update_self] at hr
      obtain ⟨q, -, rfl⟩ := Option.map_eq_some_iff.mp hr
      cases ho
    · simp only [Core.setRecord, Function.update_of_ne hd] at hr
      exact h.owner d r hr ho

end

/-! ### Jobs that join the queue and become its head -/

/-- R150: a job joins the tail of the queue. -/
theorem Core.Queued.join {head : Option Job} {rest : List Job} (h : c.Queued head rest) {i : CetIdx} {e : Cell}
    (he : c.cells i = some e) (hi : e.status = .idle) (room : head.toList.length + rest.length < 8) {j : Job}
    (hj : j = ⟨i, e.key.channel, none, c.reads, c.persist, 0, 0, 0, 0⟩) :
    (c.setStatus i .queued).Queued head (rest ++ [j]) := by
  have new : i ∉ (head.toList ++ rest).map Job.cet := (h.idle_iff he).mp hi
  have cell (k : CetIdx) : (c.setStatus i .queued).cells k = if k = i then some { e with status := .queued } else c.cells k := by
    simp only [Core.setStatus, Core.setCell, Function.update_apply, he, Option.map_some]
  have mem {k : Job} (hk : k ∈ head.toList ++ (rest ++ [j])) : k ∈ head.toList ++ rest ∨ k = j := by
    simpa [or_assoc] using hk
  subst hj
  refine ⟨h.placed.setStatus i _, h.recorded, h.settings, ?_, ?_, fun k hk => ?_, fun k hk => ?_, fun k f hf => ?_, fun k hk => ?_,
    h.located, h.owner⟩
  · rw [List.length_append, List.length_singleton]
    omega
  · rw [← List.append_assoc, List.map_append, List.nodup_append_comm]
    exact List.nodup_cons.mpr ⟨new, h.nodup⟩
  · rcases mem hk with hk | rfl
    · obtain ⟨f, hf, hc⟩ := h.known k hk
      have : k.cet ≠ i := fun hki => new (hki ▸ List.mem_map_of_mem hk)
      exact ⟨f, (cell _).trans ((if_neg this).trans hf), hc⟩
    · exact ⟨_, (cell i).trans (if_pos rfl), rfl⟩
  · rcases mem hk with hk | rfl
    · exact h.bounds k hk
    · exact h.settings
  · rw [cell] at hf
    rw [List.map_append, List.mem_append, not_or] at new
    obtain ⟨notHead, notRest⟩ := new
    have notHead : head.map Job.cet ≠ some i := by
      cases head with
      | none => nofun
      | some j => simpa [eq_comm] using notHead
    split at hf
    · next hk =>
      cases hf
      simp [statusOf, hk, notHead]
    · next hk =>
      rw [h.status k f hf]
      simp [statusOf, hk]
  · rcases List.mem_append.mp hk with hk | hk
    · exact h.fresh k hk
    · rw [List.mem_singleton.mp hk]
      exact ⟨rfl, rfl, rfl⟩

/-- R151: the first job becomes the head. -/
theorem Core.Queued.lead {j : Job} {rest : List Job} (h : c.Queued none (j :: rest)) :
    (c.setStatus j.cet .running).Queued (some { j with location := (c.cells j.cet).map Cell.readLoc }) rest := by
  obtain ⟨e, he, hk⟩ := h.known j (List.mem_cons_self)
  have cell (k : CetIdx) : (c.setStatus j.cet .running).cells k =
      if k = j.cet then some { e with status := .running } else c.cells k := by
    simp only [Core.setStatus, Core.setCell, Function.update_apply, he, Option.map_some]
  have fresh : j.cet ∉ rest.map Job.cet := (List.nodup_cons.mp h.nodup).1
  refine ⟨h.placed.setStatus _ _, h.recorded, h.settings, ?_, h.nodup, fun k hk' => ?_, fun k hk' => ?_, fun k f hf => ?_,
    fun k hk' => h.fresh k (List.mem_cons_of_mem _ hk'), fun k hk' => ?_, fun ch r hr ho => ?_⟩
  · have room := h.room
    simp only [Option.toList_none, List.length_nil, List.length_cons] at room
    simp only [Option.toList_some, List.length_singleton]
    omega
  · rcases List.mem_cons.mp hk' with rfl | hk'
    · exact ⟨_, (cell _).trans (if_pos rfl), hk⟩
    · obtain ⟨f, hf, hc⟩ := h.known k (List.mem_cons_of_mem _ hk')
      have : k.cet ≠ j.cet := fun hki => fresh (hki ▸ List.mem_map_of_mem hk')
      exact ⟨f, (cell _).trans ((if_neg this).trans hf), hc⟩
  · rcases List.mem_cons.mp hk' with rfl | hk'
    · exact h.bounds j List.mem_cons_self
    · exact h.bounds k (List.mem_cons_of_mem _ hk')
  · rw [cell] at hf
    split at hf
    · next hk' =>
      cases hf
      simp [statusOf, hk']
    · next hk' =>
      rw [h.status k f hf]
      simp [statusOf, hk', Ne.symm hk']
  · obtain rfl := Option.mem_some_iff.mp hk'
    refine ⟨e.readLoc, congrArg (Option.map Cell.readLoc) he, ?_⟩
    rw [← hk]
    exact h.placed.readLoc he
  · obtain ⟨k, hk', -⟩ := h.owner ch r hr ho
    cases hk'

/-- R148: without a head no record has an owner. -/
theorem Core.Queued.unowned {rest : List Job} (h : c.Queued none rest) {ch : Chan} :
    (c.records ch).any ReadRecord.owned = false := by
  cases hr : c.records ch with
  | none => rfl
  | some r =>
    rw [Option.any_some, ← Bool.not_eq_true]
    intro ho
    obtain ⟨j, hj, -⟩ := h.owner ch r hr ho
    cases hj

/-- R148: the job that becomes the head has all its reads before it. -/
theorem Core.Queued.lead_live {j : Job} {rest : List Job} (h : c.Queued none (j :: rest)) (ha : c.active j.channel = true)
    (l : Option ReadLoc) : (c.setStatus j.cet .running).Live { j with location := l } := by
  obtain ⟨-, issued, counted⟩ := h.fresh j List.mem_cons_self
  obtain ⟨low, le, -⟩ := h.bounds j List.mem_cons_self
  have counted' : Job.counted { j with location := l } = 0 := counted
  refine ⟨ha, ?_, ?_⟩
  · rw [counted', show (c.setStatus j.cet .running).records = c.records from rfl, h.unowned]
    exact issued
  · rw [counted']
    exact low.trans le

/-- R151: a job that cannot become the head leaves the queue. -/
theorem Core.Queued.skip {j : Job} {rest : List Job} (h : c.Queued none (j :: rest)) : (c.setStatus j.cet .idle).Queued none rest := by
  have fresh : j.cet ∉ rest.map Job.cet := (List.nodup_cons.mp h.nodup).1
  have cut := h.cut (i := j.cet) (x := (c.cells j.cet).map fun e => { e with status := .idle })
    (fun f hf => by
      obtain ⟨e, he, rfl⟩ := Option.map_eq_some_iff.mp hf
      exact ⟨e, he, rfl⟩) nofun
  rwa [List.filter_cons_of_neg (by simp), filter_of_not_mem fresh] at cut

end

end Sys2Proof.Machine

/-! What each update of a state does to what the laws read, and the creation and the abort of a job, the free of entries and the leak
(R28, R29, R37, R150, R151, R156). -/

namespace Sys2Proof.Machine

section
variable (s : State)

/-! ### Updates that the laws do not read -/

@[simp] theorem State.core_setFlag (f : EventFlag) : (s.setFlag f).core = s.core := rfl

@[simp] theorem State.core_setQueues (x : Table (List Report) 8) : (s.setQueues x).core = s.core := rfl

@[simp] theorem State.core_modTx (ch : Chan) (f : Transmitter → Transmitter) : (s.modTx ch f).core = s.core := rfl

@[simp] theorem State.core_noteAbort (r : AbortReason) (i : CetIdx) : (s.noteAbort r i).core = s.core := rfl

@[simp] theorem State.core_bumpGeneration : s.bumpGeneration.core = s.core := rfl

@[simp] theorem State.core_modClassifier (ch : Chan) (f : ClassifierCounters → ClassifierCounters) :
    (s.modClassifier ch f).core = s.core := rfl

@[simp] theorem State.core_sendCredit (ch : Chan) (n : Nat) : (s.sendCredit ch n).core = s.core := by
  unfold State.sendCredit
  split <;> rfl

@[simp] theorem State.core_setMail (p : Port) (m : Mailbox) : (s.setMail p m).core = s.core := by cases p <;> rfl

@[simp] theorem State.core_complete (p : Port) (code : ResultCode) (result : Pages) : (s.complete p code result).core = s.core := by
  cases p <;> rfl

@[simp] theorem State.core_latch (p : Port) : (s.latch p).core = s.core := by cases p <;> rfl

@[simp] theorem State.core_dropEvidence (i : CetIdx) : (s.dropEvidence i).core = s.core := by
  have ranges (k : RetIdx) : ((s.dropEvidence i).retired k).map RetEntry.extent = (s.retired k).map RetEntry.extent := by
    rw [State.dropEvidence, State.retired, State.setRetire_retire, Table.get_map, Option.map_map]
    refine congrArg (Option.map · (s.retired k)) (funext fun a => ?_)
    simp only [Function.comp_apply, RetEntry.dropEvidence]
    split <;> rfl
  simp only [State.core, ranges]
  rfl

/-! ### The tables -/

theorem State.core_setEntry (i : CetIdx) (x : Option CetEntry) :
    (s.setEntry i x).core = s.core.setCell i (x.map CetEntry.cell) := by
  have cells : (s.setEntry i x).core.cells = Function.update s.core.cells i (x.map CetEntry.cell) := by
    funext k
    simp only [State.core, State.entry, State.setEntry, State.setCet_cet, Table.get_set, Function.update_apply]
    split <;> rfl
  rw [Core.setCell, ← cells]
  rfl

theorem Core.setCell_self {c : Core} {i : CetIdx} {x : Option Cell} (h : c.cells i = x) : c.setCell i x = c := by
  rw [Core.setCell, ← h, Function.update_eq_self]

/-- An entry changed in what the laws do not read. -/
theorem State.core_modEntry (i : CetIdx) {f : CetEntry → CetEntry} (hf : ∀ e, (f e).cell = e.cell) :
    (s.modEntry i f).core = s.core := by
  rw [State.modEntry, State.core_setEntry, Option.map_map, show CetEntry.cell ∘ f = CetEntry.cell from funext hf]
  exact Core.setCell_self rfl

theorem State.core_setStatus (i : CetIdx) (v : VerifyStatus) : (s.setStatus i v).core = s.core.setStatus i v := by
  rw [State.setStatus, State.modEntry, State.core_setEntry, Option.map_map, Core.setStatus]
  refine congrArg (s.core.setCell i) ?_
  rw [show s.core.cells i = (s.entry i).map CetEntry.cell from rfl, Option.map_map]
  rfl

theorem State.core_setRetEntry (j : RetIdx) (x : Option RetEntry) :
    (s.setRetEntry j x).core = s.core.setRange j (x.map RetEntry.extent) := by
  have ranges : (s.setRetEntry j x).core.ranges = Function.update s.core.ranges j (x.map RetEntry.extent) := by
    funext k
    simp only [State.core, State.retired, State.setRetEntry, State.setRetire_retire, Table.get_set, Function.update_apply]
    split <;> rfl
  rw [Core.setRange, ← ranges]
  rfl

theorem Core.setRange_self {c : Core} {j : RetIdx} {x : Option Extent} (h : c.ranges j = x) : c.setRange j x = c := by
  rw [Core.setRange, ← h, Function.update_eq_self]

@[simp] theorem State.core_suppress (j : RetIdx) : (s.suppress j).core = s.core := by
  rw [State.suppress, State.core_setRetEntry, Option.map_map]
  exact Core.setRange_self rfl

/-! ### The verify queue -/

theorem State.core_setJobs (jobs : List Job) : (s.setJobs jobs).core = s.core.setJobs jobs := rfl

theorem State.core_setRecord (ch : Chan) (r : Option ReadRecord) : (s.setRecord ch r).core = s.core.setRecord ch r := by
  have records : (s.setRecord ch r).core.records = Function.update s.core.records ch r := by
    funext k
    simp only [State.core, State.setRecord, State.setVerify_verify, Table.get_set, Function.update_apply]
  rw [Core.setRecord, ← records]
  rfl

theorem State.core_orphanRecord (ch : Chan) : (s.orphanRecord ch).core =
    s.core.setRecord ch ((s.core.records ch).map fun r => { r with owned := false }) :=
  s.core_setRecord ch _

/-! ### Links and scrub contexts -/

/-- A link whose state and geometry are kept. -/
theorem State.core_modLink (ch : Chan) {f : Link → Link} (hs : (f (s.link ch)).state = (s.link ch).state)
    (hg : (f (s.link ch)).geometry = (s.link ch).geometry) : (s.modLink ch f).core = s.core := by
  have links (c : Chan) : ((s.modLink ch f).link c).state = (s.link c).state ∧
      ((s.modLink ch f).link c).geometry = (s.link c).geometry := by
    rw [State.link_modLink]
    split
    · next h => subst h; exact ⟨hs, hg⟩
    · exact ⟨rfl, rfl⟩
  have active : (s.modLink ch f).core.active = s.core.active := funext fun c => by
    simp only [State.core, State.linkActive, (links c).1]
  have geometry : (s.modLink ch f).core.geometry = s.core.geometry := funext fun c => (links c).2
  calc (s.modLink ch f).core
      = { s.core with active := (s.modLink ch f).core.active, geometry := (s.modLink ch f).core.geometry } := rfl
    _ = s.core := by rw [active, geometry]

@[simp] theorem State.core_modCounters (ch : Chan) (f : LinkCounters → LinkCounters) : (s.modCounters ch f).core = s.core :=
  s.core_modLink ch rfl rfl

theorem State.core_setLinkState (ch : Chan) (st : LinkState) :
    (s.setLinkState ch st).core = s.core.setActive ch (st == .active) := by
  have links (c : Chan) : (s.setLinkState ch st).link c = if c = ch then { s.link ch with state := st } else s.link c :=
    s.link_modLink ch c _
  have active : (s.setLinkState ch st).core.active = Function.update s.core.active ch (st == .active) := funext fun c => by
    simp only [State.core, State.linkActive, links, Function.update_apply]
    split <;> rfl
  have geometry : (s.setLinkState ch st).core.geometry = s.core.geometry := funext fun c => by
    simp only [State.core, State.geometry, links]
    split
    · next h => rw [h]
    · rfl
  calc (s.setLinkState ch st).core
      = { s.core with active := (s.setLinkState ch st).core.active, geometry := (s.setLinkState ch st).core.geometry } := rfl
    _ = s.core.setActive ch (st == .active) := by rw [active, geometry]; rfl

/-- The asks of a scrub context. -/
def Scrub.asks (c : Scrub) (tag : Tag) : Option Ask := (c.tags.get tag).map Request.ask

theorem State.core_modScrub_eq (ch : Chan) (f : Scrub → Scrub) :
    (s.modScrub ch f).core = (s.core.setCursor ch (f (s.scrub ch)).cursor).setAsks ch (f (s.scrub ch)).asks := by
  have cursor : (s.modScrub ch f).core.cursor = Function.update s.core.cursor ch (f (s.scrub ch)).cursor := funext fun c => by
    simp only [State.core, State.scrub_modScrub, Function.update_apply]
    split <;> rfl
  have asks : (s.modScrub ch f).core.asks = Function.update s.core.asks ch (f (s.scrub ch)).asks := funext fun c => by
    simp only [State.core, State.scrub_modScrub, Function.update_apply]
    split <;> rfl
  rw [Core.setCursor, ← cursor, Core.setAsks, ← asks]
  rfl

theorem Core.setCursor_self {c : Core} {ch : Chan} {k : Cursor} (h : c.cursor ch = k) : c.setCursor ch k = c := by
  rw [Core.setCursor, ← h, Function.update_eq_self]

theorem Core.setAsks_self {c : Core} {ch : Chan} {asks : Tag → Option Ask} (h : c.asks ch = asks) : c.setAsks ch asks = c := by
  rw [Core.setAsks, ← h, Function.update_eq_self]

/-- A scrub context whose cursor is kept. -/
theorem State.core_modScrub_asks (ch : Chan) {f : Scrub → Scrub} (hc : (f (s.scrub ch)).cursor = (s.scrub ch).cursor) :
    (s.modScrub ch f).core = s.core.setAsks ch (f (s.scrub ch)).asks := by
  rw [State.core_modScrub_eq, Core.setCursor_self hc.symm]

/-- A scrub context whose cursor and requests are kept. -/
theorem State.core_modScrub (ch : Chan) {f : Scrub → Scrub} (hc : (f (s.scrub ch)).cursor = (s.scrub ch).cursor)
    (ht : (f (s.scrub ch)).tags = (s.scrub ch).tags) : (s.modScrub ch f).core = s.core := by
  have asks : (f (s.scrub ch)).asks = s.core.asks ch := funext fun tag => by
    rw [Scrub.asks, ht]; rfl
  rw [State.core_modScrub_asks s ch hc, Core.setAsks_self asks.symm]

@[simp] theorem State.core_countSkipped (ch : Chan) : (s.countSkipped ch).core = s.core := s.core_modScrub ch rfl rfl

end

/-! ### The creation of a job -/

section
variable {s : State}

/-- The law of the head reads its link and its record alone. -/
theorem Core.Live.congr {c d : Core} {j : Job} (h : c.Live j) (active : d.active j.channel = c.active j.channel)
    (records : d.records j.channel = c.records j.channel) : d.Live j where
  active := active.trans h.active
  issued := by rw [records]; exact h.issued
  counted := h.counted

/-- A queue whose list of jobs is the one that the laws speak of. -/
theorem Core.Queued.sound {c : Core} {j : Job} {rest : List Job} (h : c.Queued (some j) rest) (live : c.Live j) :
    (c.setJobs (j :: rest)).Sound where
  queued := h.setJobs _
  live k hk := by
    obtain rfl := Option.mem_some_iff.mp hk
    exact live.congr rfl rfl

/-- R151: a change of the head among jobs of which none is the head. -/
theorem makeHead_sound {jobs : List Job} (h : s.core.Queued none jobs) : (makeHead jobs s).core.Sound := by
  induction jobs generalizing s with
  | nil => exact ⟨h.setJobs [], nofun⟩
  | cons j rest ih =>
    by_cases ha : (s.link j.channel).state = .active
    · have location : (s.entry j.cet).map CetEntry.readLoc = (s.core.cells j.cet).map Cell.readLoc := by
        rw [show s.core.cells j.cet = (s.entry j.cet).map CetEntry.cell from rfl, Option.map_map]; rfl
      rw [makeHead_active_cons ha, State.core_setJobs, State.core_setStatus, location]
      exact h.lead.sound (h.lead_live (State.core_active.mpr ha) _)
    · rw [makeHead_inactive_cons ha]
      refine ih ?_
      rw [State.core_noteAbort, State.core_setStatus]
      exact h.skip

/-- R150: a job is created for an IDLE entry in a queue with room. -/
theorem State.createJob_sound {i : CetIdx} {e : CetEntry} (h : s.core.Sound) (he : s.entry i = some e) (hi : e.status = .idle)
    (room : s.verify.jobs.length < Config.verifySize) : (s.createJob i e.key.channel).core.Sound := by
  have cell : s.core.cells i = some e.cell := State.core_cells_eq_some.mpr ⟨e, he, rfl⟩
  obtain ⟨queued, live⟩ := h
  unfold State.createJob
  dsimp only
  cases hj : s.verify.jobs with
  | nil =>
    rw [show s.core.jobs = [] from hj] at queued
    rw [List.isEmpty_nil, if_pos rfl]
    refine makeHead_sound ?_
    rw [State.core_setStatus]
    exact queued.join cell hi (by decide) rfl
  | cons j rest =>
    rw [show s.core.jobs = j :: rest from hj] at queued live
    rw [List.isEmpty_cons, if_neg (by decide), State.core_setJobs, State.core_setStatus]
    have room' : (some j).toList.length + rest.length < 8 := by
      rw [hj, List.length_cons] at room
      rw [Option.toList_some, List.length_singleton, Nat.add_comm]
      exact room
    exact (queued.join cell hi room' rfl).sound ((live j rfl).congr rfl rfl)

/-! ### The abort of a job -/

theorem filter_head_eq_none {j : Job} {i : CetIdx} (h : j.cet = i) : (some j).filter (fun j => j.cet != i) = none := by
  simp [Option.filter, h]

theorem filter_head_eq_self {j : Job} {i : CetIdx} (h : j.cet ≠ i) : (some j).filter (fun j => j.cet != i) = some j := by
  simp [Option.filter, h]

/-- R156: the abort of the job of an entry that may have been freed just before, from a queue whose laws held until then but for the
law of the head when the head is that job. -/
theorem State.abortJob_sound {c : Core} {i : CetIdx} {x : Option Cell} (r : AbortReason) (hs : s.core = c.setCell i x)
    (hx : x = none ∨ x = c.cells i) (queued : c.Queued c.jobs.head? c.jobs.tail)
    (live : ∀ j ∈ c.jobs.head?, j.cet ≠ i → c.Live j) (hi : i ∈ c.jobs.map Job.cet) : (s.abortJob r i).core.Sound := by
  have hx' (f : Cell) (hf : x.map (fun e => { e with status := .idle }) = some f) :
      ∃ e, c.cells i = some e ∧ f = { e with status := .idle } := by
    obtain ⟨e, he, rfl⟩ := Option.map_eq_some_iff.mp hf
    rcases hx with rfl | rfl
    · cases he
    · exact ⟨e, he, rfl⟩
  have cells : (c.setCell i x).setStatus i .idle = c.setCell i (x.map fun e => { e with status := .idle }) := by
    simp only [Core.setStatus, Core.setCell, Function.update_self, Function.update_idem]
  have jobs : s.verify.jobs = c.jobs := congrArg Core.jobs hs
  cases hj : c.jobs with
  | nil => rw [hj] at hi; cases hi
  | cons j rest =>
    rw [hj] at queued live hi jobs
    by_cases hji : j.cet = i
    · subst hji
      rw [State.abortJob_head r jobs]
      refine makeHead_sound ?_
      have cut := ((queued.orphan j.channel).cut (i := j.cet) hx' fun k hk _ q hq => by
        obtain rfl := Option.mem_some_iff.mp hk
        simp only [Core.setRecord, Function.update_self] at hq
        obtain ⟨q, -, rfl⟩ := Option.map_eq_some_iff.mp hq
        rfl).setJobs rest
      rw [List.head?_cons, List.tail_cons, filter_head_eq_none rfl, filter_of_not_mem (jobs := rest) queued.head_fresh] at cut
      rw [State.core_noteAbort, State.core_orphanRecord, State.core_setStatus, State.core_setJobs, hs,
        show ((c.setCell j.cet x).setJobs rest).setStatus j.cet .idle = ((c.setCell j.cet x).setStatus j.cet .idle).setJobs rest
          from rfl, cells]
      exact cut
    · have mem : i ∈ rest.map Job.cet := by
        rw [List.map_cons, List.mem_cons] at hi
        exact hi.resolve_left (Ne.symm hji)
      rw [State.abortJob_tail r jobs hji mem, State.core_noteAbort, State.core_setStatus, State.core_setJobs, hs,
        show ((c.setCell i x).setJobs (j :: rest.filter fun k => k.cet != i)).setStatus i .idle =
          ((c.setCell i x).setStatus i .idle).setJobs (j :: rest.filter fun k => k.cet != i) from rfl, cells]
      have cut := queued.cut (i := i) hx' fun k hk hki => by
        obtain rfl := Option.mem_some_iff.mp hk
        exact absurd hki hji
      rw [List.head?_cons, filter_head_eq_self hji] at cut
      exact cut.sound ((live j rfl hji).congr rfl rfl)

/-- R113: the head job of a channel is aborted, from a queue whose laws hold but for the law of that head. -/
theorem State.abortRunningOn_sound {ch : Chan} (queued : s.core.Queued s.core.jobs.head? s.core.jobs.tail)
    (live : ∀ j ∈ s.core.jobs.head?, j.channel ≠ ch → s.core.Live j) : (s.abortRunningOn ch).core.Sound := by
  unfold State.abortRunningOn
  split
  · next hj =>
    rw [show s.core.jobs = s.verify.jobs from rfl, hj] at queued live
    exact ⟨by rw [show s.core.jobs = s.verify.jobs from rfl, hj]; exact queued,
      by rw [show s.core.jobs = s.verify.jobs from rfl, hj]; nofun⟩
  · next j rest hj =>
    have head : s.core.jobs.head? = some j := congrArg List.head? hj
    split
    · refine State.abortJob_sound .link (Core.setCell_self rfl).symm (.inr rfl) queued (fun k hk hne => ?_) ?_
      · rw [head] at hk
        exact absurd (Option.mem_some_iff.mp hk ▸ rfl) hne
      · exact List.mem_map_of_mem (List.mem_of_head? head)
    · next hne =>
      exact ⟨queued, fun k hk => live k hk (by
        rw [head] at hk
        exact Option.mem_some_iff.mp hk ▸ hne)⟩

/-! ### The free of entries -/

/-- R28: a free of an entry without a job, or for a cause that aborts its job. -/
theorem State.freeEntry_sound {i : CetIdx} {reason : Option AbortReason} (h : s.core.Sound)
    (hr : reason = none → ∀ e, s.entry i = some e → e.status = .idle) : (s.freeEntry i reason).core.Sound := by
  cases he : s.entry i with
  | none => rwa [State.freeEntry_of_none he]
  | some e =>
    have idle := h.queued.idle_iff (State.core_cells_eq_some.mpr ⟨e, he, rfl⟩)
    rw [toList_head_append_tail] at idle
    have emptied : ((s.setEntry i none).bumpGeneration).core = s.core.setCell i none := s.core_setEntry i none
    by_cases hi : e.status = .idle
    · have : s.freeEntry i reason = ((s.setEntry i none).bumpGeneration).dropEvidence i := State.freeEntry_eq_freed he (.inr hi)
      rw [this, State.core_dropEvidence, emptied]
      refine ⟨h.queued.free ?_, fun j hj => (h.live j hj).congr rfl rfl⟩
      rw [toList_head_append_tail]
      exact idle.mp hi
    · obtain ⟨r, rfl⟩ := Option.ne_none_iff_exists'.mp fun hn => hi (hr hn e he)
      rw [State.freeEntry_eq_abort r he hi, State.core_dropEvidence]
      exact State.abortJob_sound r emptied (.inl rfl) h.queued (fun j hj _ => h.live j hj) (not_not.mp (mt idle.mpr hi))

/-- R37: every entry given is freed, and its job aborted. -/
theorem State.freeAll_sound (r : AbortReason) {is : List CetIdx} (h : s.core.Sound) : (s.freeAll is (some r)).core.Sound := by
  induction is generalizing s with
  | nil => exact h
  | cons i is ih => exact ih (State.freeEntry_sound h nofun)

end

end Sys2Proof.Machine

/-! Proposals, CE records, the leak and the appends to the log: what they do to the laws of a queue (R18 to R29, R46, R47, R70, R71). -/

namespace Sys2Proof.Machine

/-! ### Proposals -/

/-- R46: the range of a proposal is well formed when its key lies within the geometry. -/
theorem Key.range_wellFormed {k : Key} {g : Geometry} (hg : g.allowed = true) (hk : k.within g = true) :
    (k.range g).wellFormed g = true := by
  obtain ⟨-, -, low, high⟩ := Geometry.allowed_bounds hg
  simp only [Key.within, Bool.and_eq_true, decide_eq_true_eq] at hk
  obtain ⟨⟨rank, bank⟩, row⟩ := hk
  unfold Key.range Range.wellFormed
  cases hr : k.row with
  | some r =>
    simp only [hr, Option.map_some, Option.getD_some, decide_eq_true_eq] at row
    simp [Geometry.admits, rank, bank, row]
  | none =>
    have last : (g.rows - 1) % 262144 = g.rows - 1 := Nat.mod_eq_of_lt (by omega)
    have some_row : 0 < g.rows := low
    simp [Geometry.admits, rowOfNat, last, rank, bank, some_row]

theorem Loc.rowRange_wellFormed {l : Loc} {g : Geometry} (h : l.within g = true) : l.rowRange.wellFormed g = true := by
  obtain ⟨rank, bank, row⟩ := Geometry.admits_iff.mp h
  simp [Loc.rowRange, Range.wellFormed, Geometry.admits, rank, bank, row]

/-- A change of the ranges alone that keeps every place. -/
structure Core.Relisted (c d : Core) : Prop where
  placed : c.Placed → d.Placed
  same   : d = { c with ranges := d.ranges }

section
variable {c d : Core}

theorem Core.Relisted.refl (c : Core) : c.Relisted c := ⟨id, rfl⟩

theorem Core.Relisted.queued (h : c.Relisted d) {head : Option Job} {rest : List Job} (q : c.Queued head rest) :
    d.Queued head rest := by
  have placed := h.placed q.placed
  rw [h.same] at placed ⊢
  exact { q with placed := placed }

theorem Core.Relisted.sound (h : c.Relisted d) (law : c.Sound) : d.Sound := by
  have queued := h.queued law.queued
  rw [h.same] at queued ⊢
  exact ⟨queued, fun j hj => (law.live j hj).congr rfl rfl⟩

/-- R47: a PROPOSED range that is well formed is new in the list. -/
theorem Core.relisted_proposed {j : RetIdx} {r : Range} (hr : c.Placed → r.wellFormed (c.geometry r.channel) = true) :
    c.Relisted (c.setRange j (some ⟨r, .proposed⟩)) where
  same := rfl
  placed h := by
    have range (k : RetIdx) (a : Extent) (ha : (c.setRange j (some ⟨r, .proposed⟩)).ranges k = some a) :
        a = ⟨r, .proposed⟩ ∨ c.ranges k = some a := by
      simp only [Core.setRange, Function.update_apply] at ha
      split at ha
      · exact .inl (Option.some.inj ha).symm
      · exact .inr ha
    refine { h with ranges := fun k a ha => ?_, purged := fun i e k a he ha ht hin => ?_ }
    · rcases range k a ha with rfl | ha
      · exact hr h
      · exact h.ranges k a ha
    · rcases range k a ha with rfl | ha
      · cases ht
      · exact h.purged i e k a he ha ht hin

end

section
variable {s : State}

theorem State.propose_relisted (r : Range) (ev : Evidence) (hr : s.core.Placed → r.wellFormed (s.geometry r.channel) = true) :
    s.core.Relisted (s.propose r ev).1.core := by
  unfold State.propose
  split
  · exact .refl _
  · split
    · rw [State.core_setFlag, State.core_setRetEntry]
      exact Core.relisted_proposed hr
    · exact .refl _

theorem State.core_link (s : State) (i : CetIdx) (j : RetIdx) :
    (s.modEntry i fun e => { e with link := some j }).core = s.core := s.core_modEntry i fun _ => rfl

/-- R22: a proposal attempt keeps every place. -/
theorem State.proposalAttempt_relisted (i : CetIdx) : s.core.Relisted (s.proposalAttempt i).core := by
  unfold State.proposalAttempt
  split
  · exact .refl _
  · next e he =>
    have proposed := s.propose_relisted (e.key.range (s.geometry e.key.channel)) (.cet i) fun h => by
      have channel : (e.key.range (s.geometry e.key.channel)).channel = e.key.channel := by
        unfold Key.range
        split <;> rfl
      have fits := h.cells i e.cell (State.core_cells_eq_some.mpr ⟨e, he, rfl⟩)
      rw [channel]
      exact Key.range_wellFormed (h.allowed _) (Bool.and_eq_true_iff.mp fits).1
    split
    · next t j ht => rw [ht] at proposed; rwa [t.core_link i j]
    · next t j ht => rw [ht] at proposed; rwa [t.core_link i j]
    · next t ht => rwa [ht] at proposed

theorem State.thresholdProposal_sound (i : CetIdx) (h : s.core.Sound) : (s.thresholdProposal i).core.Sound := by
  unfold State.thresholdProposal
  split
  · exact (s.proposalAttempt_relisted i).sound h
  · exact h

/-! ### Promotion -/

theorem State.autoVerifyAttempt_sound (i : CetIdx) (h : s.core.Sound) : (s.autoVerifyAttempt i).core.Sound := by
  unfold State.autoVerifyAttempt
  split
  · exact h
  · next e he =>
    split
    · next hi =>
      split
      · next room => exact State.createJob_sound h he hi room
      · exact h
    · exact h

theorem State.promotionTest_sound (i : CetIdx) (h : s.core.Sound) : (s.promotionTest i).core.Sound := by
  unfold State.promotionTest
  split
  · exact h
  · split
    · have same : ((s.modEntry i fun e => { e with state := .overThreshold }).setFlag .ceThreshold).core = s.core :=
        s.core_modEntry i fun _ => rfl
      have raised := same ▸ h
      unfold State.promote
      dsimp only
      split
      · exact State.thresholdProposal_sound i (State.autoVerifyAttempt_sound i raised)
      · exact State.thresholdProposal_sound i raised
    · exact h

/-! ### Hits and allocations -/

/-- R19: a hit moves the last row of an entry. -/
theorem Core.Sound.hit {c : Core} (h : c.Sound) {i : CetIdx} {e : Cell} (he : c.cells i = some e) {row : Row}
    (hr : row.val < (c.geometry e.key.channel).rows) : (c.setCell i (some { e with row := row })).Sound where
  queued :=
    have cell (k : CetIdx) (f : Cell) (hf : (c.setCell i (some { e with row := row })).cells k = some f) :
        ∃ g, c.cells k = some g ∧ f.key = g.key ∧ f.status = g.status ∧ (f = { e with row := row } ∨ f = g) := by
      simp only [Core.setCell, Function.update_apply] at hf
      split at hf
      · next hk =>
        cases hf
        exact ⟨e, hk ▸ he, rfl, rfl, .inl rfl⟩
      · exact ⟨f, hf, rfl, rfl, .inr rfl⟩
    { h.queued with
      placed := h.queued.placed.entries fun k f hf => by
        obtain ⟨g, hg, hk, -, rfl | rfl⟩ := cell k f hf
        · have fits := h.queued.placed.cells i e he
          exact ⟨g, hg, hk, Bool.and_eq_true_iff.mpr ⟨(Bool.and_eq_true_iff.mp fits).1, decide_eq_true hr⟩⟩
        · exact ⟨f, hg, rfl, h.queued.placed.cells k f hg⟩
      known := fun j hj => by
        obtain ⟨f, hf, hc⟩ := h.queued.known j hj
        simp only [Core.setCell, Function.update_apply]
        split
        · next hji =>
          obtain rfl : f = e := Option.some.inj (hf.symm.trans (hji ▸ he))
          exact ⟨_, rfl, hc⟩
        · exact ⟨f, hf, hc⟩
      status := fun k f hf => by
        obtain ⟨g, hg, -, hs, -⟩ := cell k f hf
        exact hs.trans (h.queued.status k g hg) }
  live j hj := (h.live j hj).congr rfl rfl

/-- R61: no CONFIRMED range contains the key. -/
def Core.Outside (c : Core) (k : Key) : Prop :=
  ∀ j a, c.ranges j = some a → a.state = .confirmed → k.inside a.range (c.geometry k.channel) = false

/-- R24: a new entry at a free index. -/
theorem Core.Sound.allocate {c : Core} (h : c.Sound) {i : CetIdx} (hi : c.cells i = none) {k : Key} {row : Row}
    (hf : Cell.fits ⟨k, row, .idle⟩ (c.geometry k.channel) = true) (ho : c.Outside k) :
    (c.setCell i (some ⟨k, row, .idle⟩)).Sound where
  queued :=
    have cell (l : CetIdx) (f : Cell) (hf : (c.setCell i (some ⟨k, row, .idle⟩)).cells l = some f) :
        (l = i ∧ f = ⟨k, row, .idle⟩) ∨ c.cells l = some f := by
      simp only [Core.setCell, Function.update_apply] at hf
      split at hf
      · next hl => exact .inl ⟨hl, (Option.some.inj hf).symm⟩
      · exact .inr hf
    have new (j : Job) (hj : j ∈ c.jobs.head?.toList ++ c.jobs.tail) : j.cet ≠ i := fun hji => by
      obtain ⟨e, he, -⟩ := h.queued.known j hj
      rw [hji, hi] at he
      cases he
    { h.queued with
      placed :=
        { h.queued.placed with
          cells := fun l f hl => by
            rcases cell l f hl with ⟨-, rfl⟩ | hl
            · exact hf
            · exact h.queued.placed.cells l f hl
          purged := fun l f j a hl ha ht hin => by
            rcases cell l f hl with ⟨-, rfl⟩ | hl
            · exact absurd (hin.symm.trans (ho j a ha ht)) nofun
            · exact h.queued.placed.purged l f j a hl ha ht hin }
      known := fun j hj => by
        obtain ⟨e, he, hc⟩ := h.queued.known j hj
        exact ⟨e, (Function.update_of_ne (new j hj) _ _).trans he, hc⟩
      status := fun l f hl => by
        rcases cell l f hl with ⟨rfl, rfl⟩ | hl
        · have notHead : ¬c.jobs.head?.map Job.cet = some l := fun hh => by
            obtain ⟨j, hj, rfl⟩ := Option.map_eq_some_iff.mp hh
            exact new j (List.mem_append_left _ (Option.mem_toList.mpr hj)) rfl
          have notRest : l ∉ c.jobs.tail.map Job.cet := fun hm => by
            obtain ⟨j, hj, rfl⟩ := List.mem_map.mp hm
            exact new j (List.mem_append_right _ hj) rfl
          exact ((if_neg notHead).trans (if_neg notRest)).symm
        · exact h.queued.status l f hl }
  live j hj := (h.live j hj).congr rfl rfl

/-- R28: an IDLE entry is freed. -/
theorem Core.Sound.free {c : Core} (h : c.Sound) {i : CetIdx} (hi : ∀ e, c.cells i = some e → e.status = .idle) :
    (c.setCell i none).Sound := by
  cases he : c.cells i with
  | none => rwa [Core.setCell_self he]
  | some e => exact ⟨h.queued.free ((h.queued.idle_iff he).mp (hi e he)), fun j hj => (h.live j hj).congr rfl rfl⟩

theorem State.core_freed (s : State) (i : CetIdx) : (s.freed i).core = s.core.setCell i none :=
  calc (s.freed i).core = (((s.setEntry i none).bumpGeneration).dropEvidence i).core := rfl
    _ = s.core.setCell i none := by rw [State.core_dropEvidence, State.core_bumpGeneration, State.core_setEntry]; rfl

theorem State.freed_sound {i : CetIdx} (h : s.core.Sound) (hi : ∀ e, s.entry i = some e → e.status = .idle) :
    (s.freed i).core.Sound := by
  rw [State.core_freed]
  refine h.free fun x hx => ?_
  obtain ⟨e, he, rfl⟩ := State.core_cells_eq_some.mp hx
  exact hi e he

/-! ### CE records -/

theorem Granularity.reduce_channel (g : Granularity) (l : Loc) : (g.reduce l).channel = l.channel := by cases g <;> rfl

/-- R4, R6: the key and the row of a location within the geometry. -/
theorem Granularity.reduce_fits (g : Granularity) {l : Loc} {geometry : Geometry} (hl : l.within geometry = true) :
    Cell.fits ⟨g.reduce l, l.row, .idle⟩ geometry = true := by
  obtain ⟨rank, bank, row⟩ := Geometry.admits_iff.mp hl
  cases g <;> simp [Cell.fits, Key.within, Granularity.reduce, rank, bank, row]

/-- R8, R50: a location that no CONFIRMED range contains reduces to a key inside none. -/
theorem State.reduce_outside (g : Granularity) {l : Loc} (hl : l.within (s.geometry l.channel) = true)
    (hn : s.lookupLoc l = none) : s.core.Outside (g.reduce l) := by
  intro j x hx ht
  obtain ⟨a, ha, rfl⟩ := State.core_ranges_eq_some.mp hx
  rw [State.lookupLoc, State.lookup, Table.find_eq_none] at hn
  have answer := hn j
  rw [show s.retire.entries.get j = some a from ha, Option.map_some, Option.getD_some, RetEntry.answers,
    show a.state = .confirmed from ht, beq_self_eq_true, Bool.true_and] at answer
  rw [Granularity.reduce_channel]
  cases g with
  | cell => exact answer
  | row => exact answer
  | bank =>
    obtain ⟨-, -, row⟩ := Geometry.admits_iff.mp hl
    simp only [Range.covers, Key.inside, Granularity.reduce, Range.isBank, RetEntry.extent, Bool.and_eq_false_iff,
      decide_eq_false_iff_not] at answer ⊢
    have row : l.row.val < (s.core.geometry l.channel).rows := row
    rcases answer with other | beyond
    · exact .inl (decide_eq_false other)
    · rcases not_and_or.mp beyond with below | above
      · exact .inr (.inl (decide_eq_false (by omega)))
      · exact .inr (.inr (decide_eq_false (by omega)))

/-- R24: the allocation of a free index. -/
theorem State.allocate_sound {i : CetIdx} {r : CeRecord} (h : s.core.Sound) (hi : s.entry i = none)
    (hl : r.loc.within (s.geometry r.loc.channel) = true) (ho : ∀ g : Granularity, s.core.Outside (g.reduce r.loc)) :
    (s.allocate i r).core.Sound := by
  refine State.promotionTest_sound i ?_
  rw [State.core_bumpGeneration, State.core_setEntry]
  refine h.allocate (k := s.cet.policy.granularity.reduce r.loc) (row := r.loc.row) ?_ ?_ (ho _)
  · rw [show s.core.cells i = (s.entry i).map CetEntry.cell from rfl, hi]; rfl
  · rw [Granularity.reduce_channel]
    exact Granularity.reduce_fits _ hl

/-- R19: a hit on the entry of a record's key. -/
theorem State.cetHit_sound {i : CetIdx} {e : CetEntry} {r : CeRecord} (h : s.core.Sound) (he : s.entry i = some e)
    (hk : e.key.channel = r.loc.channel) (hl : r.loc.within (s.geometry r.loc.channel) = true) : (s.cetHit i r).core.Sound := by
  have counted : (s.setEntry i (some (e.hit r))).core.Sound := by
    rw [State.core_setEntry]
    refine h.hit (e := e.cell) (State.core_cells_eq_some.mpr ⟨e, he, rfl⟩) (row := r.loc.row) ?_
    rw [show e.cell.key.channel = r.loc.channel from hk]
    exact (Geometry.admits_iff.mp hl).2.2
  unfold State.cetHit
  rw [he]
  dsimp only
  split
  · exact State.promotionTest_sound i counted
  · exact State.thresholdProposal_sound i counted

/-- R26: a replacement frees an IDLE entry before the allocation. -/
theorem State.replace_sound {i : CetIdx} {r : CeRecord} (h : s.core.Sound) (hv : s.victim = some i)
    (hl : r.loc.within (s.geometry r.loc.channel) = true) (ho : ∀ g : Granularity, s.core.Outside (g.reduce r.loc)) :
    (s.replace i r).core.Sound := by
  obtain ⟨e, he, ⟨-, -, idle⟩, -⟩ := (s.victim_eq_some i).mp hv
  have freed := State.freed_sound h fun f hf => Option.some.inj (he.symm.trans hf) ▸ idle
  unfold State.replace
  dsimp only
  rw [State.freeEntry_eq_freed he (.inl rfl)]
  refine State.allocate_sound freed ((s.freed_entry i i).trans (if_pos rfl)) hl fun g => ?_
  have same : (s.freed i).core.Outside (g.reduce r.loc) := by
    rw [State.core_freed]
    exact ho g
  exact same

/-- R18: a CE record within the geometry that no CONFIRMED range contains. -/
theorem State.takeCe_sound {r : CeRecord} (h : s.core.Sound) (hl : r.loc.within (s.geometry r.loc.channel) = true)
    (hn : s.lookupLoc r.loc = none) : (s.takeCe r).core.Sound := by
  have outside (g : Granularity) := s.reduce_outside g hl hn
  unfold State.takeCe
  split
  · next i hi =>
    have found := (Table.find_eq_some hi).1
    cases he : s.cet.entries.get i with
    | none => rw [he] at found; cases found
    | some e =>
      rw [he, Option.map_some, Option.getD_some, decide_eq_true_eq] at found
      exact State.cetHit_sound h he (by rw [found, Granularity.reduce_channel]) hl
  · split
    · next i hi =>
      have free := (Table.find_eq_some hi).1
      exact State.allocate_sound h (Option.isNone_iff_eq_none.mp free) hl outside
    · split
      · next i hi => exact State.replace_sound h hi hl outside
      · exact h

/-! ### The leak -/

theorem State.core_lowered (s : State) : s.lowered.core = s.core := by
  have cells (i : CetIdx) : (s.lowered.entry i).map CetEntry.cell = (s.entry i).map CetEntry.cell := by
    rw [State.lowered_entry, Option.map_map]
    refine congrArg (Option.map · (s.entry i)) (funext fun e => ?_)
    simp only [Function.comp_apply, CetEntry.leak]
    split <;> rfl
  simp only [State.core, cells]
  rfl

/-- R29: entries without a job are freed in order. -/
theorem State.freedAll_sound {is : List CetIdx} (h : s.core.Sound)
    (hi : ∀ i ∈ is, ∀ e, s.entry i = some e → e.status = .idle) : (s.freedAll is).core.Sound := by
  induction is generalizing s with
  | nil => exact h
  | cons i is ih =>
    refine ih (State.freed_sound h (hi i List.mem_cons_self)) fun k hk e he => ?_
    rw [State.freed_entry] at he
    split at he
    · cases he
    · exact hi k (List.mem_cons_of_mem i hk) e he

theorem State.leakTable_sound (h : s.core.Sound) : s.leakTable.core.Sound := by
  rw [State.leakTable_eq]
  refine State.freedAll_sound (s.core_lowered.symm ▸ h) fun i hi e he => ?_
  obtain ⟨f, hf, ⟨-, -, idle⟩, -⟩ := State.mem_drained.mp hi
  rw [State.lowered_entry, hf, Option.map_some, Option.some.injEq] at he
  rw [← he, CetEntry.leak]
  split <;> exact idle

/-! ### The log and the classification of an error -/

theorem State.appendUe_sound {a : UeAppend} (h : s.core.Sound) (hl : a.loc.within (s.geometry a.loc.channel) = true) :
    (s.appendUe a).core.Sound := by
  unfold State.appendUe State.ueProposal State.loseUe
  dsimp only
  split
  · split
    · exact (State.propose_relisted (s := s.storeUe a) _ _ fun _ => Loc.rowRange_wellFormed hl).sound h
    · exact h
  · split <;> exact h

theorem State.routeCorrected_sound {l : Loc} {cls : CeClass} {origin : Origin} (h : s.core.Sound)
    (hl : l.within (s.geometry l.channel) = true) : (s.routeCorrected l cls origin).core.Sound := by
  unfold State.routeCorrected
  split
  · rwa [State.core_suppress]
  · next hn => exact State.takeCe_sound h hl hn

theorem State.classifyError_sound (l : Loc) (cls : ErrClass) (origin : Origin) (h : s.core.Sound) :
    (s.classifyError l cls origin).core.Sound := by
  unfold State.classifyError
  split
  · next hl =>
    split
    · exact State.routeCorrected_sound h hl
    · exact State.appendUe_sound h hl
  · exact h

end

end Sys2Proof.Machine

/-! The end of a read and what it brings, and the abandonment of requests when a link leaves ACTIVE or its far end restarts (R113, R119,
R141, R147, R153, R154). -/

namespace Sys2Proof.Machine

/-! ### Requests that end -/

section
variable {c : Core} {ch : Chan} {asks : Tag → Option Ask}

theorem Core.Placed.setAsks (h : c.Placed)
    (ha : ∀ tag a, asks tag = some a → (c.geometry ch).admits a.rank a.bank a.row = true) : (c.setAsks ch asks).Placed :=
  { h with
    asks := fun d tag a hd => by
      rw [Core.setAsks_asks] at hd
      split at hd
      · next hdc => subst hdc; exact ha tag a hd
      · exact h.asks d tag a hd }

/-- R97, R133: requests of kind PATROL come and go on a channel. -/
theorem Core.Sound.setAsks (h : c.Sound)
    (ha : ∀ tag a, asks tag = some a → (c.geometry ch).admits a.rank a.bank a.row = true)
    (hv : ∀ tag a, a.kind = .verify → (asks tag = some a ↔ c.asks ch tag = some a)) : (c.setAsks ch asks).Sound where
  queued :=
    { h.queued with
      placed := h.queued.placed.setAsks ha
      recorded := fun d tag number => by
        refine Iff.trans (exists_congr fun a => ?_) (h.queued.recorded d tag number)
        rw [Core.setAsks_asks]
        split
        · next hd =>
          subst hd
          exact ⟨fun ⟨hx, hk, hn⟩ => ⟨(hv tag a hk).mp hx, hk, hn⟩, fun ⟨hx, hk, hn⟩ => ⟨(hv tag a hk).mpr hx, hk, hn⟩⟩
        · rfl }
  live j hj := (h.live j hj).congr rfl rfl

/-- R147: the request of kind VERIFY of a channel is no longer outstanding and its record is absent. -/
theorem Core.Queued.unread {head : Option Job} {rest : List Job} (h : c.Queued head rest)
    (ha : ∀ tag a, asks tag = some a → c.asks ch tag = some a) (hv : ∀ tag a, asks tag = some a → a.kind ≠ .verify) :
    ((c.setAsks ch asks).setRecord ch none).Queued head rest :=
  { h with
    placed := { h.placed.setAsks fun tag a ht => h.placed.asks ch tag a (ha tag a ht) with }
    recorded := fun d tag number => by
      rw [Core.setRecord_records, show ((c.setAsks ch asks).setRecord ch none).asks d = _ from Core.setAsks_asks ch d asks]
      split
      · exact ⟨fun ⟨a, hx, hk, _⟩ => absurd hk (hv tag a hx), nofun⟩
      · exact h.recorded d tag number
    owner := fun d r hr ho => by
      rw [Core.setRecord_records] at hr
      split at hr
      · cases hr
      · exact h.owner d r hr ho }

/-- R147: a channel has one request of kind VERIFY at most. -/
theorem Core.Recorded.unique (h : c.Recorded) {t u : Tag} {a b : Ask} (ht : c.asks ch t = some a) (ha : a.kind = .verify)
    (hu : c.asks ch u = some b) (hb : b.kind = .verify) : t = u := by
  obtain ⟨r, hr, rfl, -⟩ := (h ch t a.number).mp ⟨a, ht, ha, rfl⟩
  obtain ⟨q, hq, rfl, -⟩ := (h ch u b.number).mp ⟨b, hu, hb, rfl⟩
  rw [Option.some.inj (hr.symm.trans hq)]

/-- R153: the head with one more read counted. -/
theorem Core.Queued.rehead {j k : Job} {rest : List Job} (h : c.Queued (some j) rest)
    (hk : k.cet = j.cet ∧ k.channel = j.channel ∧ k.location = j.location ∧ k.reads = j.reads ∧ k.persist = j.persist) :
    c.Queued (some k) rest := by
  obtain ⟨cet, channel, location, reads, persist⟩ := hk
  have mem {l : Job} (hl : l ∈ (some k).toList ++ rest) : l = k ∨ l ∈ (some j).toList ++ rest := by
    rcases List.mem_cons.mp hl with rfl | hl
    · exact .inl rfl
    · exact .inr (List.mem_cons_of_mem _ hl)
  exact
    { h with
      nodup := by
        have nodup := h.nodup
        simp only [Option.toList_some, List.singleton_append, List.map_cons] at nodup ⊢
        rwa [cet]
      known := fun l hl => by
        rcases mem hl with rfl | hl
        · rw [cet, channel]; exact h.known j List.mem_cons_self
        · exact h.known l hl
      bounds := fun l hl => by
        rcases mem hl with rfl | hl
        · rw [reads, persist]; exact h.bounds j List.mem_cons_self
        · exact h.bounds l hl
      status := fun i e he => by
        rw [h.status i e he, statusOf, statusOf, Option.map_some, Option.map_some, cet]
      located := fun l hl => by
        obtain rfl := Option.mem_some_iff.mp hl
        rw [location, channel]; exact h.located j rfl
      owner := fun d r hr ho => by
        obtain ⟨l, hl, hc⟩ := h.owner d r hr ho
        obtain rfl := Option.mem_some_iff.mp hl
        exact ⟨k, rfl, channel.trans hc⟩ }

/-- R154: a head that owns no record leaves the queue and its entry becomes IDLE. -/
theorem Core.Queued.retire {j : Job} {rest : List Job} (h : c.Queued (some j) rest) (hr : c.records j.channel = none) :
    (c.setStatus j.cet .idle).Queued none rest := by
  have cut := h.cut (i := j.cet) (x := (c.cells j.cet).map fun e => { e with status := .idle })
    (fun f hf => by
      obtain ⟨e, he, rfl⟩ := Option.map_eq_some_iff.mp hf
      exact ⟨e, he, rfl⟩)
    (fun k hk _ r hkr => by
      obtain rfl := Option.mem_some_iff.mp hk
      rw [hr] at hkr
      cases hkr)
  rwa [filter_head_eq_none rfl, filter_of_not_mem h.head_fresh] at cut

end

/-! ### The end of a read -/

section
variable {s : State}

theorem Job.countRead_kept (j : Job) (x : ReadResult) : (j.countRead x).cet = j.cet ∧ (j.countRead x).channel = j.channel ∧
    (j.countRead x).location = j.location ∧ (j.countRead x).reads = j.reads ∧ (j.countRead x).persist = j.persist := by
  cases x <;> exact ⟨rfl, rfl, rfl, rfl, rfl⟩

theorem Job.countRead_issued (j : Job) (x : ReadResult) : (j.countRead x).issued = j.issued := by cases x <;> rfl

theorem Job.countRead_counted (j : Job) (x : ReadResult) : (j.countRead x).counted = j.counted + 1 := by
  cases x <;> simp only [Job.countRead, Job.counted] <;> omega

/-- R154: the head brings its outcome and leaves the queue. -/
theorem State.reachOutcome_sound {j : Job} {rest : List Job} (h : s.core.Queued (some j) rest)
    (hr : s.core.records j.channel = none) : (s.reachOutcome j rest).core.Sound := by
  have written : ((s.modEntry j.cet fun e => { e with result := some (j.outcome, s.now), status := .idle }).setFlag
      .verifyDone).core = s.core.setStatus j.cet .idle := by
    rw [State.core_setFlag, State.modEntry, State.core_setEntry, Option.map_map, Core.setStatus,
      show s.core.cells j.cet = (s.entry j.cet).map CetEntry.cell from rfl, Option.map_map]
    rfl
  have left := h.retire hr
  rw [← written] at left
  unfold State.reachOutcome
  dsimp only
  refine makeHead_sound ?_
  rw [State.core_setJobs]
  split
  · exact ((State.proposalAttempt_relisted j.cet).queued left).setJobs rest
  · exact left.setJobs rest

/-- R153: a read is counted in a head that owns a record no more. -/
theorem State.countRead_sound {j : Job} {rest : List Job} (hj : s.verify.jobs = j :: rest) (h : s.core.Queued (some j) rest)
    (hr : s.core.records j.channel = none) (ha : s.core.active j.channel = true) (hi : j.issued = j.counted + 1)
    (x : ReadResult) : (s.countRead x).core.Sound := by
  have kept := j.countRead_kept x
  have counted := h.rehead kept
  have channel := kept.2.1
  unfold State.countRead
  rw [hj]
  dsimp only
  split
  · exact State.reachOutcome_sound counted (by rw [channel]; exact hr)
  · next more =>
    rw [State.core_setJobs]
    refine counted.sound ⟨by rw [channel]; exact ha, ?_, not_le.mp more⟩
    rw [channel, hr, Job.countRead_issued, Job.countRead_counted]
    exact hi

/-- R153: the end of the read of a request of kind VERIFY whose tag has just been freed. -/
theorem State.endRead_sound {u : State} {ch : Chan} {tag : Tag} {q : Ask} {asks : Tag → Option Ask} (h : s.core.Sound)
    (hu : u.core = s.core.setAsks ch asks) (hq : s.core.asks ch tag = some q) (hk : q.kind = .verify)
    (ha : ∀ t a, asks t = some a → t ≠ tag ∧ s.core.asks ch t = some a) (x : ReadResult) :
    (u.endRead ch tag q.number (some x)).core.Sound := by
  obtain ⟨r, hr, ht, hn⟩ := (h.queued.recorded ch tag q.number).mp ⟨q, hq, hk, rfl⟩
  have record : u.verify.records.get ch = some r := (congrFun (congrArg Core.records hu) ch).trans hr
  have jobs : u.verify.jobs = s.core.jobs := congrArg Core.jobs hu
  have ended : (u.setRecord ch none).core = (s.core.setAsks ch asks).setRecord ch none := by rw [State.core_setRecord, hu]
  have queued : (u.setRecord ch none).core.Queued s.core.jobs.head? s.core.jobs.tail := by
    rw [ended]
    exact h.queued.unread (fun t a hta => (ha t a hta).2) fun t a hta hv =>
      (ha t a hta).1 (h.queued.recorded.unique (ha t a hta).2 hv hq hk)
  have absent : (u.setRecord ch none).core.records ch = none := by
    rw [ended]
    exact Function.update_self ..
  have active : (u.setRecord ch none).core.active = s.core.active := by rw [ended]; rfl
  unfold State.endRead
  rw [record]
  dsimp only
  rw [if_pos ⟨ht, hn⟩]
  split
  · next owned =>
    obtain ⟨j, hj, rfl⟩ := h.queued.owner ch r hr owned
    have live := h.live j hj
    have list : u.verify.jobs = j :: s.core.jobs.tail := by
      rw [jobs]
      exact (List.cons_head?_tail hj).symm
    rw [show s.core.jobs.head? = some j from hj] at queued
    refine State.countRead_sound (s := u.setRecord j.channel none) list queued absent (by rw [active]; exact live.active) ?_ x
    rw [live.issued, hr, Option.any_some, owned]
    rfl
  · next unowned =>
    refine ⟨by rw [show (u.setRecord ch none).core.jobs = s.core.jobs from jobs]; exact queued, fun j hj => ?_⟩
    rw [show (u.setRecord ch none).core.jobs = s.core.jobs from jobs] at hj
    have live := h.live j hj
    refine ⟨by rw [active]; exact live.active, ?_, live.counted⟩
    rw [live.issued, ended]
    rw [Core.setRecord_records]
    split
    · next hc => rw [hc, hr, Option.any_some, Option.any_none, Bool.eq_false_iff.mpr unowned]
    · rfl

end

end Sys2Proof.Machine

/-! Departures of a link, the synchronization exchange, arrivals, and the issue events: what they do to the laws of a queue (R107 to R120,
R129 to R141, R152). -/

namespace Sys2Proof.Machine

/-! ### Scrub contexts whose cursor and requests are kept -/

/-- R127: the cursor and the tags are as they were. -/
structure Scrub.SameAims (c d : Scrub) : Prop where
  cursor : d.cursor = c.cursor
  tags   : d.tags = c.tags

theorem Scrub.SameAims.refl (c : Scrub) : c.SameAims c := ⟨rfl, rfl⟩

theorem Scrub.segmentTest_aims (c : Scrub) : c.SameAims c.segmentTest := by
  unfold Scrub.segmentTest
  split <;> exact ⟨rfl, rfl⟩

theorem Scrub.takeHold_aims (c : Scrub) : c.SameAims c.takeHold := by
  unfold Scrub.takeHold
  split
  · exact .refl c
  · dsimp only
    split
    · split
      · exact ⟨rfl, rfl⟩
      · exact ⟨(Scrub.segmentTest_aims _).cursor, (Scrub.segmentTest_aims _).tags⟩
    · exact ⟨rfl, rfl⟩

theorem Scrub.takeResume_aims (c : Scrub) : c.SameAims c.takeResume := by
  unfold Scrub.takeResume
  split <;> exact ⟨rfl, rfl⟩

theorem Scrub.setHoldPolicy_aims (c : Scrub) (p : HoldPolicy) (segment ceiling : Nat) :
    c.SameAims (c.setHoldPolicy p segment ceiling) := by
  unfold Scrub.setHoldPolicy
  cases p with
  | segment => exact ⟨(Scrub.segmentTest_aims _).cursor, (Scrub.segmentTest_aims _).tags⟩
  | immediate =>
    dsimp only
    split <;> exact ⟨rfl, rfl⟩

section
variable {s : State} {ch : Chan}

theorem State.modScrub_sound {f : Scrub → Scrub} (h : s.core.Sound) (hf : (s.scrub ch).SameAims (f (s.scrub ch))) :
    (s.modScrub ch f).core.Sound := by
  rwa [s.core_modScrub ch hf.cursor hf.tags]

theorem State.modLink_sound {f : Link → Link} (h : s.core.Sound) (hs : (f (s.link ch)).state = (s.link ch).state)
    (hg : (f (s.link ch)).geometry = (s.link ch).geometry) : (s.modLink ch f).core.Sound := by
  rwa [s.core_modLink ch hs hg]

theorem State.modCounters_sound (f : LinkCounters → LinkCounters) (h : s.core.Sound) : (s.modCounters ch f).core.Sound := by
  rwa [State.core_modCounters]

theorem State.countSkipped_sound (h : s.core.Sound) : (s.countSkipped ch).core.Sound := by rwa [State.core_countSkipped]

/-! ### The state of a link -/

theorem Core.Queued.setActive {c : Core} {head : Option Job} {rest : List Job} (h : c.Queued head rest) (ch : Chan) (b : Bool) :
    (c.setActive ch b).Queued head rest := { h with placed := { h.placed with } }

/-- R112: a link that becomes ACTIVE. -/
theorem Core.Sound.activate {c : Core} (h : c.Sound) (ch : Chan) : (c.setActive ch true).Sound where
  queued := h.queued.setActive ch true
  live j hj := by
    refine (h.live j hj).congr ?_ rfl
    rw [Core.setActive_active, (h.live j hj).active, ite_self]

theorem Core.setActive_self {c : Core} {ch : Chan} {b : Bool} (h : c.active ch = b) : c.setActive ch b = c := by
  rw [Core.setActive, ← h, Function.update_eq_self]

theorem State.core_active_false (h : (s.link ch).state ≠ .active) : s.core.active ch = false :=
  Bool.eq_false_iff.mpr (mt State.core_active.mp h)

/-- R110, R111: a link that is not ACTIVE and does not become so. -/
theorem State.core_setLinkState_idle {st : LinkState} (h : (s.link ch).state ≠ .active) (hst : st ≠ .active) :
    (s.setLinkState ch st).core = s.core := by
  rw [State.core_setLinkState, beq_false_of_ne hst]
  exact Core.setActive_self (State.core_active_false h)

/-! ### Departures -/

theorem Scrub.abandon_cursor (c : Scrub) : c.abandon.cursor = c.cursor := by rw [Scrub.abandon_eq]

theorem Scrub.abandon_asks (c : Scrub) : c.abandon.asks = fun _ => none := by
  funext tag
  rw [Scrub.abandon_eq, Scrub.asks, Table.get_map, Option.map_none]

/-- R141: the abandonment of the requests of a channel whose reads count nowhere. -/
theorem State.core_abandonRequests {u : State} (record : u.core.Recorded) :
    (u.abandonRequests ch none).core = (u.core.setAsks ch fun _ => none).setRecord ch none := by
  have records : (u.abandonRequests ch none).core.records = ((u.core.setAsks ch fun _ => none).setRecord ch none).records := by
    funext d
    rw [Core.setRecord_records]
    split
    · next hd =>
      subst hd
      refine State.tellAbandoned_record _ d _ _ fun r hr => ?_
      obtain ⟨q, hq, hk, hn⟩ := (State.core_recorded.mp record d r.tag r.number).mpr ⟨r, hr, rfl, rfl⟩
      exact ⟨q, Scrub.mem_tagList hq, hk, hn⟩
    · next hd => exact State.tellAbandoned_others _ ch d _ _ hd
  have freed : (u.modScrub ch Scrub.abandon).core = u.core.setAsks ch fun _ => none := by
    rw [u.core_modScrub_asks ch (Scrub.abandon_cursor _), Scrub.abandon_asks]
  calc (u.abandonRequests ch none).core
      = { (u.modScrub ch Scrub.abandon).core with records := (u.abandonRequests ch none).core.records } := by
        conv_lhs => rw [State.abandonRequests_none_eq]
        rfl
    _ = (u.core.setAsks ch fun _ => none).setRecord ch none := by rw [records, freed]; rfl

/-- R113, R121: what follows once a link that is not ACTIVE any more has been left. -/
theorem State.leave_sound {u : State} (h : s.core.Sound) (hu : u.core = s.core.setActive ch false) : (u.leave ch).core.Sound := by
  have queued : u.core.Queued s.core.jobs.head? s.core.jobs.tail := by
    rw [hu]
    exact h.queued.setActive ch false
  have abandoned := State.core_abandonRequests (ch := ch) queued.recorded
  have jobs : (u.abandonRequests ch none).core.jobs = s.core.jobs := by rw [abandoned, hu]; rfl
  refine State.abortRunningOn_sound ?_ fun j hj hne => ?_
  · rw [jobs, abandoned]
    exact queued.unread nofun nofun
  · rw [jobs] at hj
    rw [abandoned, hu]
    refine (h.live j hj).congr ?_ ?_
    · exact (Core.setActive_active ..).trans (if_neg hne)
    · exact (Core.setRecord_records ..).trans (if_neg hne)

theorem State.departActive_sound {st : LinkState} (h : s.core.Sound) (hst : st ≠ .active) :
    (s.departActive ch st).core.Sound := by
  refine State.leave_sound (u := ((s.setLinkState ch st).modLink ch Link.dropCredits).modTx ch Transmitter.withdraw) h ?_
  rw [State.core_modTx, State.core_modLink _ _ rfl rfl, State.core_setLinkState, beq_false_of_ne hst]

theorem State.goDown_sound (h : s.core.Sound) : (s.goDown ch).core.Sound := by
  refine State.leave_sound (u := ((s.setLinkState ch .down).modLink ch fun l =>
    { l.dropCredits with attempts := 0, attemptTimer := none }).modTx ch fun _ => Transmitter.cut) h ?_
  rw [State.core_modTx, State.core_modLink _ _ rfl rfl, State.core_setLinkState]
  rfl

theorem State.discardQueue_sound (h : s.core.Sound) : (s.discardQueue ch).core.Sound := by
  rw [State.discardQueue, State.core_setQueues]
  exact State.modCounters_sound _ h

/-- R110: entry to SYNCING. -/
theorem State.enterSyncing_sound (h : s.core.Sound) : (s.enterSyncing ch).core.Sound := by
  unfold State.enterSyncing
  dsimp only
  rw [State.core_modTx]
  refine State.modLink_sound ?_ rfl rfl
  split
  · exact State.departActive_sound h nofun
  · next idle =>
    have same : (s.setLinkState ch .syncing).core = s.core :=
      State.core_setLinkState_idle (mt State.core_active.mpr idle) nofun
    rw [← same] at h
    exact State.abortRunningOn_sound h.queued fun j hj _ => h.live j hj

theorem State.attemptExpiry_sound (h : s.core.Sound) (hs : (s.link ch).state ≠ .active) : (s.attemptExpiry ch).core.Sound := by
  unfold State.attemptExpiry
  split
  · rw [State.core_modTx]
    exact State.modLink_sound h rfl rfl
  · refine State.modLink_sound ?_ rfl rfl
    rwa [State.core_setLinkState_idle (st := .failed) hs nofun]

/-! ### The synchronization exchange -/

theorem State.syncInSyncing_sound (seq : BitVec 8) (h : s.core.Sound) : (s.syncInSyncing ch seq).core.Sound := by
  unfold State.syncInSyncing
  dsimp only
  rw [State.core_setLinkState, State.core_sendCredit, State.core_modLink _ _ rfl rfl]
  exact h.activate ch

/-- R119, R141: the read that a far-end restart abandons is counted. -/
theorem State.toldRestart_sound (h : s.core.Sound) : (s.toldRestart ch).core.Sound := by
  have freed : (s.abandonedLane ch).core = s.core.setAsks ch fun _ => none := by
    rw [State.abandonedLane, State.core_modScrub_asks _ _ (Scrub.abandon_cursor _), Scrub.abandon_asks, State.core_modTx]
  cases hr : s.verify.records.get ch with
  | none =>
    rw [State.toldRestart_none hr, freed]
    refine h.setAsks nofun fun tag a hk => ⟨nofun, fun ha => ?_⟩
    obtain ⟨r, hr', -⟩ := (h.queued.recorded ch tag a.number).mp ⟨a, ha, hk, rfl⟩
    exact absurd (hr.symm.trans hr') nofun
  | some r =>
    obtain ⟨x, hx, hk, hn⟩ := (h.queued.recorded ch r.tag r.number).mpr ⟨r, hr, rfl, rfl⟩
    obtain ⟨q, hq, rfl⟩ := State.core_asks_eq_some.mp hx
    have told : s.toldRestart ch = (s.abandonedLane ch).endRead ch r.tag q.number (some .noAnswer) :=
      State.tellAbandoned_named (s := s.abandonedLane ch) (Scrub.tagList_nodup _) hr (Scrub.mem_tagList hq) hk hn.symm
    rw [told]
    exact State.endRead_sound h freed hx hk nofun _

theorem State.syncInActive_sound (seq : BitVec 8) (h : s.core.Sound) : (s.syncInActive ch seq).core.Sound := by
  unfold State.syncInActive
  dsimp only
  rw [State.core_sendCredit]
  exact State.modLink_sound (State.toldRestart_sound h) rfl rfl

theorem State.arriveSync_sound (seq : BitVec 8) (h : s.core.Sound) : (s.arriveSync ch seq).core.Sound := by
  unfold State.arriveSync
  split
  · exact h
  · exact State.syncInSyncing_sound seq h
  · exact State.modCounters_sound _ h
  · exact State.syncInActive_sound seq h

/-! ### Arrivals -/

theorem State.arrive_sound (seq : BitVec 8) {onward : State → State} (h : s.core.Sound)
    (ho : ∀ t : State, t.core.Sound → (onward t).core.Sound) : (s.arrive ch seq onward).core.Sound := by
  have passed : (s.modLink ch fun l => { l with checkFailures := 0 }).core.Sound := State.modLink_sound h rfl rfl
  unfold State.arrive
  split
  · exact h
  · exact State.modCounters_sound _ h
  · exact State.modCounters_sound _ h
  · unfold State.arriveActive
    dsimp only
    have taken := State.modLink_sound (ch := ch) (f := fun l => { l with expected := seq + 1 }) passed rfl rfl
    split
    · exact ho _ taken
    · refine ho _ ?_
      rw [State.countGap, State.core_setFlag]
      exact State.modCounters_sound _ taken
    · exact State.modCounters_sound _ passed

theorem State.joinQueue_sound (r : Report) (h : s.core.Sound) : (s.joinQueue ch r).core.Sound := by
  unfold State.joinQueue
  split
  · rw [State.core_setQueues]
    exact State.modLink_sound h rfl rfl
  · rw [State.core_setFlag]
    exact State.modCounters_sound _ h

theorem State.arriveFailing_sound (h : s.core.Sound) : (s.arriveFailing ch).core.Sound := by
  have counted := State.modCounters_sound (ch := ch) (fun c => { c with checkFailures := satInc c.checkFailures }) h
  unfold State.arriveFailing
  dsimp only
  split
  · exact h
  · exact counted
  · exact counted
  · have run := State.modLink_sound (ch := ch) (f := fun l => { l with checkFailures := l.checkFailures + 1 }) counted rfl rfl
    split
    · exact State.departActive_sound run nofun
    · exact run

theorem State.returnCredit_sound (h : s.core.Sound) : (s.returnCredit ch).core.Sound := by
  unfold State.returnCredit
  split
  · dsimp only
    split
    · rw [State.core_sendCredit]
      exact State.modLink_sound h rfl rfl
    · exact State.modLink_sound h rfl rfl
  · exact h

/-! ### Tags that are freed -/

/-- The requests of a channel without that of one tag. -/
def Core.asksBut (c : Core) (ch : Chan) (tag : Tag) : Tag → Option Ask := Function.update (c.asks ch) tag none

theorem Core.asksBut_eq_some {c : Core} {tag t : Tag} {a : Ask} (h : c.asksBut ch tag t = some a) :
    t ≠ tag ∧ c.asks ch t = some a := by
  rw [Core.asksBut, Function.update_apply] at h
  split at h
  · cases h
  · next hne => exact ⟨hne, h⟩

/-- R97, R136: a tag is freed. -/
theorem State.core_freed_tag {f : Scrub → Scrub} {tag : Tag} (hc : (f (s.scrub ch)).cursor = (s.scrub ch).cursor)
    (ht : (f (s.scrub ch)).tags = (s.scrub ch).tags.set tag none) :
    (s.modScrub ch f).core = s.core.setAsks ch (s.core.asksBut ch tag) := by
  rw [s.core_modScrub_asks ch hc]
  refine congrArg (s.core.setAsks ch) (funext fun t => ?_)
  rw [Scrub.asks, ht, Table.get_set, Core.asksBut, Function.update_apply]
  split <;> rfl

/-- R97, R136: the tag of a request of kind PATROL is freed. -/
theorem Core.Sound.freeTag {c : Core} (h : c.Sound) {tag : Tag} {q : Ask} (hq : c.asks ch tag = some q) (hk : q.kind = .patrol) :
    (c.setAsks ch (c.asksBut ch tag)).Sound := by
  refine h.setAsks (fun t a ha => h.queued.placed.asks ch t a (Core.asksBut_eq_some ha).2) fun t a hv =>
    ⟨fun ha => (Core.asksBut_eq_some ha).2, fun ha => ?_⟩
  have : t ≠ tag := by
    rintro rfl
    rw [Option.some.inj (hq.symm.trans ha), hv] at hk
    cases hk
  exact (Function.update_of_ne this _ _).trans ha

/-- R136, R137: the expiry of the reply timer of a request. -/
theorem State.replyExpiry_sound {tag : Tag} {q : Request} (h : s.core.Sound) (hq : (s.scrub ch).tags.get tag = some q) :
    (s.replyExpiry ch tag q).core.Sound := by
  have ask : s.core.asks ch tag = some q.ask := State.core_asks_eq_some.mpr ⟨q, hq, rfl⟩
  have freed : (s.timedOut ch tag).core = s.core.setAsks ch (s.core.asksBut ch tag) := by
    rw [State.timedOut, State.core_modTx]
    exact State.core_freed_tag rfl rfl
  have given : ((s.timedOut ch tag).giveUp ch tag q).core.Sound := by
    unfold State.giveUp
    split
    · next hk => exact State.countSkipped_sound (freed ▸ h.freeTag ask hk)
    · next hk => exact State.endRead_sound h freed ask hk (fun t a => Core.asksBut_eq_some) _
  rw [State.replyExpiry_eq]
  split
  · exact State.departActive_sound given nofun
  · exact given

/-! ### Issue events -/

/-- The requests of a channel with one more. -/
def Core.asksWith (c : Core) (ch : Chan) (tag : Tag) (q : Ask) : Tag → Option Ask := Function.update (c.asks ch) tag (some q)

theorem Core.asksWith_apply (c : Core) (tag t : Tag) (q : Ask) :
    c.asksWith ch tag q t = if t = tag then some q else c.asks ch t := Function.update_apply ..

theorem State.core_issueRequest (s : State) (ch : Chan) (tag : Tag) (kind : RequestKind) (rank : Rank) (bank : Bank) (row : Row) :
    (s.issueRequest ch tag kind rank bank row).core =
      s.core.setAsks ch (s.core.asksWith ch tag ⟨(s.scrub ch).nextNumber, kind, rank, bank, row⟩) := by
  unfold State.issueRequest
  dsimp only
  rw [State.core_modTx, State.core_modScrub_asks]
  · refine congrArg (s.core.setAsks ch) (funext fun t => ?_)
    rw [Scrub.asks, Table.get_set, Core.asksWith_apply]
    split <;> rfl
  · rfl

/-- R133: a request of kind PATROL is issued on an IDLE tag. -/
theorem Core.Sound.askPatrol {c : Core} (h : c.Sound) {tag : Tag} {q : Ask} (hi : c.asks ch tag = none) (hk : q.kind = .patrol)
    (hq : (c.geometry ch).admits q.rank q.bank q.row = true) : (c.setAsks ch (c.asksWith ch tag q)).Sound := by
  refine h.setAsks (fun t a ha => ?_) fun t a hv => ?_
  · rw [Core.asksWith_apply] at ha
    split at ha
    · cases ha; exact hq
    · exact h.queued.placed.asks ch t a ha
  · rw [Core.asksWith_apply]
    split
    · next ht =>
      rw [ht, hi]
      refine ⟨fun ha => ?_, nofun⟩
      rw [Option.some.inj ha, hv] at hk
      cases hk
    · rfl

/-- R152: the head issues a read on an IDLE tag of a channel without a record. -/
theorem Core.Queued.askVerify {c : Core} {j : Job} {rest : List Job} (h : c.Queued (some j) rest) {tag : Tag} {q : Ask}
    (hk : q.kind = .verify) (hr : c.records j.channel = none)
    (hq : (c.geometry j.channel).admits q.rank q.bank q.row = true) :
    ((c.setAsks j.channel (c.asksWith j.channel tag q)).setRecord j.channel (some ⟨tag, q.number, true⟩)).Queued (some j) rest := by
  have placed : (c.setAsks j.channel (c.asksWith j.channel tag q)).Placed := h.placed.setAsks fun t a ha => by
    rw [Core.asksWith_apply] at ha
    split at ha
    · cases ha; exact hq
    · exact h.placed.asks _ t a ha
  refine { h with placed := { placed with }, recorded := fun d t number => ?_, owner := fun d r hdr ho => ?_ }
  · rw [Core.setRecord_records,
      show ((c.setAsks j.channel (c.asksWith j.channel tag q)).setRecord j.channel _).asks d = _ from Core.setAsks_asks ..]
    split
    · rw [Core.asksWith_apply]
      split
      · next ht => simp [ht, hk]
      · next ht =>
        constructor
        · rintro ⟨a, ha, hv, -⟩
          obtain ⟨r, hr', -⟩ := (h.recorded j.channel t a.number).mp ⟨a, ha, hv, rfl⟩
          exact absurd (hr.symm.trans hr') nofun
        · rintro ⟨r, hr', htag, -⟩
          cases hr'
          exact absurd htag.symm ht
    · exact h.recorded d t number
  · rw [Core.setRecord_records] at hdr
    split at hdr
    · next hd => exact ⟨j, rfl, hd.symm⟩
    · exact h.owner d r hdr ho

/-- R152: the read-issue check of the head job. -/
theorem State.verifyStep_sound {tag : Tag} {j : Job} (h : s.core.Sound) (hv : s.verifyReady ch = some j) :
    (s.verifyStep ch tag j).core.Sound := by
  obtain ⟨rest, jobs, rfl, absent⟩ : ∃ rest, s.verify.jobs = j :: rest ∧ j.channel = ch ∧ s.verify.records.get ch = none := by
    unfold State.verifyReady at hv
    split at hv
    · cases hv
    · next k rest hk =>
      split at hv
      · next ready =>
        obtain rfl := Option.some.inj hv
        exact ⟨rest, hk, ready.1, ready.2.2.1⟩
      · cases hv
  have head : s.core.jobs.head? = some j := congrArg List.head? jobs
  have tail : s.core.jobs.tail = rest := congrArg List.tail jobs
  have queued := h.queued
  rw [head, tail] at queued
  obtain ⟨l, hl, admits⟩ := queued.located j rfl
  have live := h.live j head
  cases hk : s.lookup j.channel l.rank l.bank l.row with
  | some i =>
    rw [State.verifyStep_retired hl (by rw [hk]; rfl)]
    refine State.abortJob_sound .retired (Core.setCell_self rfl).symm (.inr rfl) h.queued (fun k hk' hne => ?_) ?_
    · rw [head] at hk'
      exact absurd (Option.mem_some_iff.mp hk' ▸ rfl) hne
    · exact List.mem_map_of_mem (List.mem_of_head? head)
  | none =>
    rw [State.verifyStep_issued hl hk, State.core_setJobs, State.core_setRecord, State.core_issueRequest, jobs]
    have asked := queued.askVerify (tag := tag) (q := ⟨(s.scrub j.channel).nextNumber, .verify, l.rank, l.bank, l.row⟩) rfl
      absent admits
    refine (asked.rehead (k := { j with issued := j.issued + 1 }) ⟨rfl, rfl, rfl, rfl, rfl⟩).sound
      ⟨live.active, ?_, live.counted⟩
    have issued : j.issued = j.counted := by
      rw [live.issued, show s.core.records j.channel = none from absent]
      rfl
    rw [Core.setRecord_records, if_pos rfl]
    exact congrArg (· + 1) issued

theorem Core.Sound.setCursor {c : Core} (h : c.Sound) {k : Cursor} (hk : (c.geometry ch).admits k.rank k.bank k.row = true) :
    (c.setCursor ch k).Sound where
  queued :=
    { h.queued with
      placed :=
        { h.queued.placed with
          cursor := fun d => by
            simp only [Core.setCursor, Function.update_apply]
            split
            · next hd => rw [hd]; exact hk
            · exact h.queued.placed.cursor d } }
  live j hj := (h.live j hj).congr rfl rfl

/-- A scrub context whose requests are kept. -/
theorem State.modScrub_cursor_sound {f : Scrub → Scrub} (h : s.core.Sound) (ht : (f (s.scrub ch)).tags = (s.scrub ch).tags)
    (hk : (s.geometry ch).admits (f (s.scrub ch)).cursor.rank (f (s.scrub ch)).cursor.bank (f (s.scrub ch)).cursor.row = true) :
    (s.modScrub ch f).core.Sound := by
  have asks : (s.core.setCursor ch (f (s.scrub ch)).cursor).asks ch = (f (s.scrub ch)).asks := funext fun tag => by
    rw [Scrub.asks, ht]; rfl
  rw [State.core_modScrub_eq, Core.setAsks_self asks]
  exact h.setCursor hk

/-- R133: a patrol step on an IDLE tag. -/
theorem State.patrolStep_sound {tag : Tag} (h : s.core.Sound) (hi : (s.scrub ch).tags.get tag = none) :
    (s.patrolStep ch tag).core.Sound := by
  have placed := h.queued.placed
  have visited : (s.visited ch tag).core.Sound := by
    unfold State.visited
    dsimp only
    split
    · exact State.modScrub_sound h ⟨rfl, rfl⟩
    · rw [State.core_issueRequest]
      exact h.askPatrol (Option.map_eq_none_iff.mpr hi) rfl (placed.cursor ch)
  have frame : s.visited ch tag = { s with scrubs := (s.visited ch tag).scrubs, txs := (s.visited ch tag).txs } := by
    unfold State.visited
    dsimp only
    split <;> rfl
  have cursor : ((s.visited ch tag).scrub ch).cursor = (s.scrub ch).cursor := by rw [State.visited_scrub]
  have stepped : ((s.visited ch tag).modScrub ch fun c => c.step (s.geometry ch)).core.Sound := by
    refine State.modScrub_cursor_sound visited (by rw [Scrub.step_eq]) ?_
    rw [show (s.visited ch tag).geometry ch = s.geometry ch by rw [frame]; rfl, Scrub.step_eq, cursor]
    exact (Cursor.advance_cases (placed.allowed ch) (placed.cursor ch)).1
  rw [frame] at stepped
  rw [State.patrolStep_eq]
  exact stepped

/-- R132: an issue event. -/
theorem State.issue_sound (ch : Chan) (h : s.core.Sound) : (s.issue ch).core.Sound := by
  unfold State.issue
  split
  · split
    · exact h
    · next tag ht =>
      split
      · next j hv => exact State.verifyStep_sound h hv
      · split
        · exact State.patrolStep_sound h (Option.isNone_iff_eq_none.mp (Table.find_eq_some ht).1)
        · exact h
  · exact h

/-! ### Scrub replies -/

theorem Request.loc_within {q : Request} {tag : Tag} (h : s.core.Placed) (hq : (s.scrub ch).tags.get tag = some q) (column : Col) :
    (q.loc ch column).within (s.geometry ch) = true :=
  h.asks ch tag q.ask (State.core_asks_eq_some.mpr ⟨q, hq, rfl⟩)

theorem State.patrolReply_sound {r : ScrubReply} {q : Request} (h : s.core.Sound)
    (hl : (q.loc ch r.column).within (s.geometry ch) = true) : (s.patrolReply ch r q).core.Sound := by
  unfold State.patrolReply
  split
  · exact h
  · exact State.routeCorrected_sound h hl
  · exact State.appendUe_sound h hl
  · exact State.countSkipped_sound h

/-- R95 to R98: the classification of a scrub reply. -/
theorem State.classifyReply_sound (r : ScrubReply) (h : s.core.Sound) : (s.classifyReply ch r).core.Sound := by
  unfold State.classifyReply
  split
  · exact h
  · next q hm =>
    have hq : (s.scrub ch).tags.get r.tag = some q := by
      unfold State.matching at hm
      split at hm
      · next x hx =>
        split at hm
        · rw [hx, hm]
        · cases hm
      · cases hm
    have ask : s.core.asks ch r.tag = some q.ask := State.core_asks_eq_some.mpr ⟨q, hq, rfl⟩
    have freed : (s.freeTag ch r.tag).core = s.core.setAsks ch (s.core.asksBut ch r.tag) := State.core_freed_tag rfl rfl
    have within := Request.loc_within h.queued.placed hq r.column
    have patrolled (hk : q.kind = .patrol) : (s.freeTag ch r.tag).core.Sound := freed ▸ h.freeTag ask hk
    have ended (u : State) (hu : u.core = (s.freeTag ch r.tag).core) (hk : q.kind = .verify) (x : ReadResult) :
        (u.endRead ch r.tag q.number (some x)).core.Sound :=
      State.endRead_sound h (hu.trans freed) ask hk (fun t a => Core.asksBut_eq_some) x
    dsimp only
    split
    · unfold State.malformedReply
      dsimp only
      split
      · next hk => exact State.countSkipped_sound (patrolled hk)
      · next hk => exact ended ((s.freeTag ch r.tag).countMalformed ch) rfl hk _
    · split
      · next hk => exact State.patrolReply_sound (patrolled hk) within
      · next hk =>
        have counted := ended (s.freeTag ch r.tag) rfl hk r.result.counted
        unfold State.verifyReply
        dsimp only
        split
        · refine State.appendUe_sound counted ?_
          rw [State.geometry, ((s.freeTag ch r.tag).endRead_tables ch r.tag q.number _).link]
          exact within
        · exact counted

/-- R90: a take of the intake arbiter. -/
theorem State.take_sound (h : s.core.Sound) : s.take.core.Sound := by
  unfold State.take
  split
  · exact h
  · next ch _ =>
    unfold State.takeFrom
    split
    · exact h
    · next r rest _ =>
      have returned := State.returnCredit_sound (s := (s.serve (.channel ch)).setQueues (s.queues.set ch rest)) (ch := ch) h
      unfold State.classify
      split
      · exact State.classifyError_sound _ _ _ returned
      · exact State.classifyReply_sound _ returned
  · unfold State.takeSlot
    split
    · exact h
    · exact State.classifyError_sound _ _ _ h

end

end Sys2Proof.Machine

/-! The list, the purge, the geometries and the resets: what they do to the laws of a queue (R9, R29, R54 to R61, R123, R142, R176,
R184). -/

namespace Sys2Proof.Machine

/-! ### The list and the purge -/

section
variable {c : Core}

/-- A change of the ranges and of the purge that keeps every place. -/
theorem Core.Sound.listed (h : c.Sound) {ranges : RetIdx → Option Extent} {purge : Option Purge}
    (hp : Core.Placed { c with ranges := ranges, purge := purge }) : Core.Sound { c with ranges := ranges, purge := purge } where
  queued := { h.queued with placed := { hp with } }
  live j hj := (h.live j hj).congr rfl rfl

/-- R54, R55, R59: a range that becomes CONFIRMED and the purge that begins for it. -/
theorem Core.Placed.confirm (h : c.Placed) (hp : c.purge = none) {j : RetIdx} {r : Range}
    (hr : r.wellFormed (c.geometry r.channel) = true) : Core.Placed
      { c with ranges := Function.update c.ranges j (some ⟨r, .confirmed⟩), purge := some ⟨j, 0, 0⟩ } := by
  have range (k : RetIdx) (a : Extent) (ha : Function.update c.ranges j (some ⟨r, .confirmed⟩) k = some a) :
      (k = j ∧ a = ⟨r, .confirmed⟩) ∨ c.ranges k = some a := by
    rw [Function.update_apply] at ha
    split at ha
    · next hk => exact .inl ⟨hk, (Option.some.inj ha).symm⟩
    · exact .inr ha
  refine { h with ranges := fun k a ha => ?_, purged := fun i e k a he ha ht hin => ?_ }
  · rcases range k a ha with ⟨-, rfl⟩ | ha
    · exact hr
    · exact h.ranges k a ha
  · rcases range k a ha with ⟨rfl, -⟩ | ha
    · exact ⟨_, rfl, rfl, Nat.zero_le _⟩
    · obtain ⟨g, hg, -⟩ := h.purged i e k a he ha ht hin
      exact absurd (hp.symm.trans hg) nofun

/-- R56, R57: a range that leaves the list. -/
theorem Core.Placed.removeRange (h : c.Placed) (j : RetIdx) : (c.setRange j none).Placed := by
  have range (k : RetIdx) (a : Extent) (ha : (c.setRange j none).ranges k = some a) : c.ranges k = some a := by
    simp only [Core.setRange, Function.update_apply] at ha
    split at ha
    · cases ha
    · exact ha
  exact { h with
    ranges := fun k a ha => h.ranges k a (range k a ha)
    purged := fun i e k a he ha => h.purged i e k a he (range k a ha) }

theorem Core.relisted_removed (c : Core) (j : RetIdx) : c.Relisted (c.setRange j none) := ⟨fun h => h.removeRange j, rfl⟩

/-- R60, R61: the purge has gone past the index of its next visit, or has ended there. -/
theorem Core.Placed.visited (h : c.Placed) {g : Purge} (hg : c.purge = some g) {purge : Option Purge}
    (gone : ∀ i e a, i.val = g.next → c.cells i = some e → c.ranges g.serves = some a →
      e.key.inside a.range (c.geometry e.key.channel) = false)
    (next : purge = none ∧ 127 ≤ g.next ∨ ∃ n, purge = some { g with next := g.next + 1, purged := n }) :
    Core.Placed { c with purge := purge } :=
  { h with
    purged := fun i e j a he ha ht hin => by
      obtain ⟨d, hd, hj, hle⟩ := h.purged i e j a he ha ht hin
      obtain rfl : d = g := Option.some.inj (hd.symm.trans hg)
      have later : i.val ≠ d.next := fun hi => absurd hin (by simp [gone i e a hi he (hj ▸ ha)])
      rcases next with ⟨-, last⟩ | ⟨n, rfl⟩
      · have := i.isLt
        omega
      · exact ⟨_, rfl, hj, show d.next + 1 ≤ i.val by omega⟩ }

end

section
variable {s : State}

@[simp] theorem State.core_unlinkAll (s : State) (j : RetIdx) : (s.unlinkAll j).core = s.core := by
  have cells (i : CetIdx) : ((s.unlinkAll j).entry i).map CetEntry.cell = (s.entry i).map CetEntry.cell := by
    rw [State.unlinkAll, State.entry, State.setCet_cet, Table.get_map, Option.map_map]
    refine congrArg (Option.map · (s.entry i)) (funext fun e => ?_)
    simp only [Function.comp_apply, CetEntry.unlink]
    split <;> rfl
  simp only [State.core, cells]
  rfl

/-- R54, R55, R59. -/
theorem State.confirm_sound {j : RetIdx} {a : RetEntry} (h : s.core.Sound) (hp : s.engine.purge = none)
    (ha : a.state = .confirmed) (hr : a.range.wellFormed (s.geometry a.range.channel) = true) :
    ((s.setRetEntry j (some a)).beginPurge j).core.Sound := by
  have begun : ((s.setRetEntry j (some a)).beginPurge j).core =
      { (s.setRetEntry j (some a)).core with purge := some ⟨j, 0, 0⟩ } := rfl
  rw [begun, State.core_setRetEntry, Option.map_some, RetEntry.extent, ha]
  exact h.listed (h.queued.placed.confirm hp hr)

/-- R56, R57. -/
theorem State.removeRange_sound (j : RetIdx) (h : s.core.Sound) : ((s.setRetEntry j none).unlinkAll j).core.Sound := by
  rw [State.core_unlinkAll, State.core_setRetEntry]
  exact (s.core.relisted_removed j).sound h

theorem State.core_endPurge (s : State) (g : Purge) (n : Nat) : (s.endPurge g n).core = { s.core with purge := none } := by
  unfold State.endPurge
  dsimp only
  split
  · rw [State.core_complete]; rfl
  · rfl

/-- R60: after its visit no entry is left at the index whose key lies inside the range served. -/
theorem State.visit_gone {g : Purge} {i : CetIdx} {e : CetEntry} {a : RetEntry}
    (he : (s.visit g i).1.entry i = some e) (ha : (s.visit g i).1.retired g.serves = some a) :
    e.key.inside a.range ((s.visit g i).1.geometry e.key.channel) = false := by
  unfold State.visit at he ha ⊢
  split at he
  · next hits =>
    rw [if_pos hits] at ha
    cases hx : s.entry i with
    | none =>
      rw [State.freeEntry_of_none hx, hx] at he
      cases he
    | some x =>
      have free := (State.freeEntry_statusOnly hx (some .retired)).eq_none ((s.freed_entry i i).trans (if_pos rfl))
      exact absurd (free.symm.trans he) nofun
  · next misses =>
    rw [if_neg misses] at ha
    rw [if_neg misses]
    unfold State.purgeHits at misses
    rw [show s.retire.entries.get g.serves = some a from ha, show s.entry i = some e from he] at misses
    exact Bool.eq_false_iff.mpr misses

/-- R60, R61: a visit of the purge. -/
theorem State.purgeStep_sound {g : Purge} (h : s.core.Sound) (hg : s.engine.purge = some g) : (s.purgeStep g).core.Sound := by
  unfold State.purgeStep finOf
  split
  · next beyond =>
    have beyond : ¬g.next < 128 := by
      intro hn
      simp [hn] at beyond
    rw [State.core_endPurge]
    refine h.listed (h.queued.placed.visited hg (fun i e a hi => ?_) (.inl ⟨rfl, by omega⟩))
    exact absurd (hi ▸ i.isLt) beyond
  · next i hi =>
    have place : i.val = g.next := by
      split at hi
      · cases hi; rfl
      · cases hi
    have visited : (s.visit g i).1.core.Sound := by
      unfold State.visit
      split
      · exact State.freeEntry_sound h nofun
      · exact h
    have purge : (s.visit g i).1.core.purge = some g := by
      unfold State.visit
      split
      · exact (congrArg Engine.purge (s.freeEntry_tables i _).engine).trans hg
      · exact hg
    have gone (k : CetIdx) (x : Cell) (y : Extent) (hk : k.val = g.next) (hx : (s.visit g i).1.core.cells k = some x)
        (hy : (s.visit g i).1.core.ranges g.serves = some y) :
        x.key.inside y.range ((s.visit g i).1.core.geometry x.key.channel) = false := by
      obtain rfl : k = i := Fin.ext (hk.trans place.symm)
      obtain ⟨e, he, rfl⟩ := State.core_cells_eq_some.mp hx
      obtain ⟨a, ha, rfl⟩ := State.core_ranges_eq_some.mp hy
      exact State.visit_gone he ha
    dsimp only
    split
    · exact visited.listed (visited.queued.placed.visited purge gone (.inr ⟨_, rfl⟩))
    · rw [State.core_endPurge]
      exact visited.listed (visited.queued.placed.visited purge gone (.inl ⟨rfl, by omega⟩))

/-! ### The geometries -/

/-- R9, R123: a new geometry of a channel whose link is not ACTIVE and that has no request outstanding, with what it asks of the
entries and of the ranges. -/
theorem Core.Sound.configure {c : Core} (h : c.Sound) {ch : Chan} {g : Geometry} {k : Cursor} (hg : g.allowed = true)
    (ha : c.active ch = false) (hasks : ∀ tag, c.asks ch tag = none) (hk : g.admits k.rank k.bank k.row = true)
    (hc : ∀ i e, c.cells i = some e → e.key.channel = ch → e.fits g = true)
    (hr : ∀ j a, c.ranges j = some a → a.range.channel = ch → a.range.compatible (c.geometry ch) g = true) :
    ((c.setGeometry ch g).setCursor ch k).Sound where
  queued :=
    have placed := h.queued.placed
    { h.queued with
      placed :=
        { placed with
          allowed := fun d => by
            simp only [Core.setGeometry, Core.setCursor, Function.update_apply]
            split
            · exact hg
            · exact placed.allowed d
          cursor := fun d => by
            simp only [Core.setGeometry, Core.setCursor, Function.update_apply]
            split
            · exact hk
            · exact placed.cursor d
          asks := fun d tag q hq => by
            simp only [Core.setGeometry, Core.setCursor, Function.update_apply]
            split
            · next hd =>
              subst hd
              exact absurd ((hasks tag).symm.trans hq) nofun
            · exact placed.asks d tag q hq
          cells := fun i e he => by
            simp only [Core.setGeometry, Core.setCursor, Function.update_apply]
            split
            · next hd => exact hc i e he hd
            · exact placed.cells i e he
          ranges := fun j a ha => by
            simp only [Core.setGeometry, Core.setCursor, Function.update_apply]
            split
            · next hd => exact (Bool.and_eq_true_iff.mp (hr j a ha hd)).1
            · exact placed.ranges j a ha
          purged := fun i e j a he ha ht hin => by
            simp only [Core.setGeometry, Core.setCursor, Function.update_apply] at hin
            split at hin
            · next hd =>
              subst hd
              refine placed.purged i e j a he ha ht ?_
              unfold Key.inside at hin ⊢
              cases hrow : e.key.row with
              | some row => rw [hrow] at hin; exact hin
              | none =>
                rw [hrow] at hin
                obtain ⟨place, bank⟩ := Bool.and_eq_true_iff.mp hin
                have channel := (of_decide_eq_true place).1
                have same := beq_iff_eq.mp (Bool.and_eq_true_iff.mp (hr j a ha channel)).2
                exact Bool.and_eq_true_iff.mpr ⟨place, same ▸ bank⟩
            · exact placed.purged i e j a he ha ht hin }
      located := fun j hj => by
        have : j.channel ≠ ch := fun hd => by
          have live := (h.live j hj).active
          rw [hd, ha] at live
          cases live
        simp only [Core.setGeometry, Core.setCursor, Function.update_of_ne this]
        exact h.queued.located j hj }
  live j hj := (h.live j hj).congr rfl rfl

theorem State.core_setGeometry (s : State) (ch : Chan) (g : Geometry) :
    (s.modLink ch fun l => { l with geometry := g }).core = s.core.setGeometry ch g := by
  have links (c : Chan) : (s.modLink ch fun l => { l with geometry := g }).link c =
      if c = ch then { s.link ch with geometry := g } else s.link c := s.link_modLink ch c _
  have active : s.core.active = (s.modLink ch fun l => { l with geometry := g }).core.active := funext fun c => by
    simp only [State.core, State.linkActive, links]
    split
    · next h => rw [h]
    · rfl
  have geometry : Function.update s.core.geometry ch g = (s.modLink ch fun l => { l with geometry := g }).core.geometry :=
    funext fun c => by
      simp only [State.core, State.geometry, links, Function.update_apply]
      split <;> rfl
  rw [Core.setGeometry, geometry, active]
  rfl

theorem State.core_fitCursor (s : State) (ch : Chan) (g : Geometry) :
    (s.modScrub ch fun c => c.fitCursor g).core = s.core.setCursor ch ((s.scrub ch).fitCursor g).cursor := by
  have asks : (s.core.setCursor ch ((s.scrub ch).fitCursor g).cursor).asks ch = ((s.scrub ch).fitCursor g).asks :=
    funext fun tag => by rw [Scrub.asks, Scrub.fitCursor_eq]; rfl
  rw [State.core_modScrub_eq, Core.setAsks_self asks]

/-! ### The resets -/

/-- R41, R159, R176: what the laws read once the verify queue and the tags have been emptied. -/
theorem Core.Sound.emptied {c : Core} (h : c.Sound) : Core.Sound { c with
    cells := fun i => (c.cells i).map fun e => { e with status := .idle }
    jobs := []
    records := fun _ => none
    asks := fun _ _ => none } where
  queued :=
    have cell (i : CetIdx) (f : Cell) (hf : (c.cells i).map (fun e => { e with status := .idle }) = some f) :
        ∃ e, c.cells i = some e ∧ { e with status := .idle } = f := Option.map_eq_some_iff.mp hf
    { placed :=
        { h.queued.placed.entries (cells := fun i => (c.cells i).map fun e => { e with status := .idle }) fun i f hf => by
            obtain ⟨e, he, rfl⟩ := cell i f hf
            exact ⟨e, he, rfl, h.queued.placed.cells i e he⟩ with
          asks := nofun }
      recorded := fun _ _ _ => ⟨nofun, nofun⟩
      settings := h.queued.settings
      room := Nat.zero_le 8
      nodup := List.nodup_nil
      known := nofun
      bounds := nofun
      status := fun i f hf => by
        obtain ⟨e, -, rfl⟩ := cell i f hf
        rfl
      fresh := nofun
      located := nofun
      owner := nofun }
  live := nofun

theorem State.core_emptied (s : State) : (s.emptyIntake.emptyVerify.setScrubs
      (s.emptyIntake.emptyVerify.scrubs.map Scrub.softReset)).core = { s.core with
    cells := fun i => (s.core.cells i).map fun e => { e with status := .idle }
    jobs := []
    records := fun _ => none
    asks := fun _ _ => none } := by
  have cells (i : CetIdx) : ((s.emptyVerify).entry i).map CetEntry.cell =
      (s.core.cells i).map fun e => { e with status := .idle } := by
    rw [State.emptyVerify, State.entry, State.setCet_cet, Table.get_map, Option.map_map,
      show s.core.cells i = (s.entry i).map CetEntry.cell from rfl, Option.map_map]
    rfl
  have records (ch : Chan) : s.emptyVerify.verify.records.get ch = none := Table.get_map _ _ _
  have scrub (ch : Chan) : (s.scrubs.map Scrub.softReset).get ch = (s.scrub ch).softReset := Table.get_map _ _ _
  have tags (ch : Chan) (tag : Tag) : ((s.scrub ch).softReset).tags.get tag = none := Table.get_map _ _ _
  calc (s.emptyIntake.emptyVerify.setScrubs (s.emptyIntake.emptyVerify.scrubs.map Scrub.softReset)).core
      = { s.core with
          cells := fun i => ((s.emptyVerify).entry i).map CetEntry.cell
          jobs := []
          records := fun ch => s.emptyVerify.verify.records.get ch
          cursor := fun ch => ((s.scrubs.map Scrub.softReset).get ch).cursor
          asks := fun ch tag => (((s.scrubs.map Scrub.softReset).get ch).tags.get tag).map Request.ask } := rfl
    _ = _ := by
      simp only [cells, records, scrub, tags, Option.map_none]
      rfl

/-- R176: a Soft reset. -/
theorem State.softReset_sound (h : s.core.Sound) : s.softReset.core.Sound := by
  have resynced (chs : List Chan) (t : State) (ht : t.core.Sound) : (chs.foldl State.resyncAtReset t).core.Sound := by
    induction chs generalizing t with
    | nil => exact ht
    | cons ch rest ih =>
      refine ih _ ?_
      unfold State.resyncAtReset
      split
      · exact ht
      · exact State.enterSyncing_sound ht
  exact resynced _ _ (s.core_emptied ▸ h.emptied)

/-! ### The clock -/

theorem State.core_lowerPacing (s : State) : (s.setScrubs (s.scrubs.map Scrub.lowerPacing)).core = s.core := by
  have scrub (ch : Chan) : (s.setScrubs (s.scrubs.map Scrub.lowerPacing)).scrub ch = (s.scrub ch).lowerPacing :=
    Table.get_map _ _ _
  simp only [State.core, scrub]
  rfl

theorem State.core_lowerMs (s : State) : s.lowerMs.core = s.core := by
  have link (ch : Chan) : s.lowerMs.link ch = (s.link ch).lowerMs := Table.get_map _ _ _
  have scrub (ch : Chan) : s.lowerMs.scrub ch = (s.scrub ch).lowerMs := Table.get_map _ _ _
  have active : s.lowerMs.linkActive = s.linkActive := funext fun ch => by rw [State.linkActive, link]; rfl
  have geometry : s.lowerMs.geometry = s.geometry := funext fun ch => by rw [State.geometry, link]; rfl
  have asks (ch : Chan) (tag : Tag) : (((s.scrub ch).lowerMs).tags.get tag).map Request.ask =
      ((s.scrub ch).tags.get tag).map Request.ask := by
    rw [Scrub.lowerMs, Table.get_map, Option.map_map]
    rfl
  simp only [State.core, scrub, active, geometry, asks]
  rfl

end

end Sys2Proof.Machine

/-! What the body of each command and every command do to the laws of a queue, and these laws along a step. -/

namespace Sys2Proof.Machine

/-! ### The bodies of the commands -/

/-- A state in which the engine may take a command: no purge is in progress (R164), and no request is outstanding on a link that is not
ACTIVE (R141). -/
structure State.Ready (s : State) : Prop where
  sound : s.core.Sound
  purge : s.engine.purge = none
  quiet : ∀ ch, (s.link ch).state ≠ .active → ∀ tag, (s.scrub ch).tags.get tag = none

/-- Whatever its port and parameters, the body of a command keeps the laws of a queue. -/
def BodySound (body : Body) : Prop := ∀ p ps s, s.Ready → (body p ps s).1.core.Sound

section
variable {s : State} {w : Word}

theorem withChannel_sound {f : Chan → State × Answer} (h : s.core.Sound) (hf : ∀ ch, (f ch).1.core.Sound) :
    (withChannel s w f).1.core.Sound := by
  unfold withChannel
  split
  · exact h
  · exact hf _

theorem withScrubChannel_sound {f : Chan → State × Answer} (h : s.core.Sound) (hf : ∀ ch, (f ch).1.core.Sound) :
    (withScrubChannel s w f).1.core.Sound := by
  unfold withScrubChannel
  split
  · exact h
  · exact hf _

theorem withCetEntry_sound {f : CetIdx → CetEntry → State × Answer} (h : s.core.Sound)
    (hf : ∀ i e, s.entry i = some e → (f i e).1.core.Sound) : (withCetEntry s w f).1.core.Sound := by
  unfold withCetEntry withCetIndex
  split
  · exact h
  · dsimp only
    split
    · exact h
    · next e he => exact hf _ e he

theorem withRetEntry_sound {needs : RetState} {f : RetIdx → RetEntry → State × Answer} (h : s.core.Sound)
    (hf : ∀ j a, s.retired j = some a → (f j a).1.core.Sound) : (withRetEntry s w needs f).1.core.Sound := by
  unfold withRetEntry withRetIndex
  split
  · exact h
  · dsimp only
    split
    · exact h
    · next a ha =>
      split
      · exact hf _ a ha
      · exact h

end

/-! The link commands and those of the engine alone. -/

theorem bodyConfigureChannel_sound : BodySound bodyConfigureChannel := fun _ _ s h => withChannel_sound h.sound fun ch => by
  dsimp only
  split
  · exact h.sound
  · next hg =>
    split
    · exact h.sound
    · next down =>
      split
      · exact h.sound
      · next fits =>
        have allowed := (Bool.not_eq_true _).mp hg
        rw [Bool.not_eq_false'] at allowed
        have idle : (s.link ch).state ≠ .active := by
          rw [not_not.mp down]
          nofun
        obtain ⟨entries, ranges⟩ := State.compatible_iff.mp (by simpa using fits)
        rw [State.core_fitCursor, State.core_setGeometry]
        refine h.sound.configure allowed (State.core_active_false idle) (fun tag => ?_) ?_ (fun i x hx hc => ?_) fun j x hx hc => ?_
        · exact Option.map_eq_none_iff.mpr (h.quiet ch idle tag)
        · obtain ⟨ranks, banks, rows⟩ := Geometry.allowed_bounds allowed
          unfold Scrub.fitCursor
          split
          · assumption
          · exact Geometry.admits_iff.mpr ⟨ranks.1, banks.1, rows.1⟩
        · obtain ⟨e, he, rfl⟩ := State.core_cells_eq_some.mp hx
          exact entries i e he hc
        · obtain ⟨a, ha, rfl⟩ := State.core_ranges_eq_some.mp hx
          exact ranges j a ha hc

theorem bodyLinkEnable_sound : BodySound bodyLinkEnable := fun _ _ _ h => withChannel_sound h.sound fun ch => by
  split
  · exact State.enterSyncing_sound h.sound
  · exact h.sound

theorem bodyResyncLink_sound : BodySound bodyResyncLink := fun _ _ _ h => withChannel_sound h.sound fun ch => by
  split
  · exact State.enterSyncing_sound h.sound
  · exact h.sound

theorem bodyLinkDisable_sound : BodySound bodyLinkDisable := fun _ _ _ h => withChannel_sound h.sound fun ch => by
  split
  · exact h.sound
  · exact State.discardQueue_sound (State.goDown_sound h.sound)

theorem Core.Sound.setPolicy {c : Core} (h : c.Sound) {reads persist : Nat} (hb : ReadBounds reads persist) :
    Core.Sound { c with reads := reads, persist := persist } where
  queued := { h.queued with placed := { h.queued.placed with }, settings := hb }
  live j hj := (h.live j hj).congr rfl rfl

theorem bodySetPolicy_sound : BodySound bodySetPolicy := fun _ ps s h => by
  unfold bodySetPolicy
  dsimp only
  split
  · exact h.sound
  · split
    · exact h.sound
    · next accepted =>
      have applied : ((policyWords ps).apply s).core = { s.core with
          reads := (policyWords ps).choose 5 (some (policyWords ps).reads) s.verify.reads
          persist := (policyWords ps).choose 6 (some (policyWords ps).persist) s.verify.persist } := by
        unfold PolicyWords.apply
        dsimp only
        split <;> rfl
      rw [applied]
      exact h.sound.setPolicy (PolicyWords.verify_inRange accepted h.sound.queued.settings)

theorem State.core_clearCounters (s : State) (ch : Chan) : (s.clearCounters ch).core = s.core :=
  calc (s.clearCounters ch).core
      = (((s.modCounters ch fun _ => ⟨0, 0, 0, 0, 0, 0, 0, 0, 0⟩).modClassifier ch fun _ => ⟨0, 0⟩).modScrub ch fun c =>
          { c with counters := ⟨0, 0, 0⟩ }).core := rfl
    _ = s.core := by rw [State.core_modScrub _ _ rfl rfl, State.core_modClassifier, State.core_modCounters]

theorem bodyReadCounters_sound : BodySound bodyReadCounters := fun _ _ s h => withChannel_sound h.sound fun ch => by
  split
  · exact h.sound
  · dsimp only
    split
    · rw [State.core_clearCounters]
      exact h.sound
    · exact h.sound

theorem bodyInjectReport_sound : BodySound bodyInjectReport := fun _ _ _ h => by
  unfold bodyInjectReport
  split
  · split <;> exact h.sound
  · exact h.sound

theorem bodySetAuthority_sound : BodySound bodySetAuthority := fun _ _ _ h => by
  unfold bodySetAuthority
  split <;> exact h.sound

theorem bodySetServiceFirst_sound : BodySound bodySetServiceFirst := fun _ _ _ h => by
  unfold bodySetServiceFirst
  split <;> exact h.sound

theorem bodyEngineReset_sound : BodySound bodyEngineReset := fun _ _ s h => by
  have reset := State.softReset_sound h.sound
  unfold bodyEngineReset
  generalize s.softReset = t at reset ⊢
  exact reset

/-! The commands on the CET. -/

theorem bodyReadCet_sound : BodySound bodyReadCet := fun _ _ _ h => by
  unfold bodyReadCet withCetIndex
  split <;> exact h.sound

theorem bodyFindCet_sound : BodySound bodyFindCet := fun _ _ _ h => by
  unfold bodyFindCet
  split
  · exact h.sound
  · split
    · split <;> exact h.sound
    · exact h.sound

theorem bodyClearCetEntry_sound : BodySound bodyClearCetEntry := fun _ _ _ h =>
  withCetEntry_sound h.sound fun _ _ _ => State.freeEntry_sound h.sound nofun

theorem bodyClearCetAll_sound : BodySound bodyClearCetAll := fun _ _ _ h => State.freeAll_sound .cleared h.sound

theorem State.core_pin (s : State) (i : CetIdx) (b : Bool) : (s.modEntry i fun e => { e with pinned := b }).core = s.core :=
  s.core_modEntry i fun _ => rfl

theorem bodyPinCet_sound : BodySound bodyPinCet := fun _ _ s h => withCetEntry_sound h.sound fun i _ _ => by
  split
  · exact h.sound
  · split
    · exact h.sound
    · exact (s.core_pin i true).symm ▸ h.sound

theorem bodyUnpinCet_sound : BodySound bodyUnpinCet := fun _ _ s h =>
  withCetEntry_sound h.sound fun i _ _ => (s.core_pin i false).symm ▸ h.sound

theorem bodyStartVerify_sound : BodySound bodyStartVerify := fun _ _ _ h => withCetEntry_sound h.sound fun i e he => by
  split
  · next hi =>
    split
    · next room => exact State.createJob_sound h.sound he hi room
    · exact h.sound
  · exact h.sound

/-! The commands on the list. -/

theorem bodyReadRetire_sound : BodySound bodyReadRetire := fun _ _ _ h => by
  unfold bodyReadRetire withRetIndex
  split <;> exact h.sound

theorem bodyFindRetire_sound : BodySound bodyFindRetire := fun _ _ _ h => by
  unfold bodyFindRetire
  split
  · exact h.sound
  · split
    · split <;> exact h.sound
    · exact h.sound

theorem bodyAddRetire_sound : BodySound bodyAddRetire := fun _ _ _ h => by
  unfold bodyAddRetire
  split
  · exact h.sound
  · split
    · next formed =>
      split
      · exact h.sound
      · split
        · exact h.sound
        · exact State.confirm_sound h.sound h.purge rfl formed
    · exact h.sound

theorem bodyConfirmRetire_sound : BodySound bodyConfirmRetire := fun _ _ _ h => withRetEntry_sound h.sound fun j a ha =>
  State.confirm_sound h.sound h.purge rfl
    (h.sound.queued.placed.ranges j a.extent (State.core_ranges_eq_some.mpr ⟨a, ha, rfl⟩))

theorem bodyRejectRetire_sound : BodySound bodyRejectRetire := fun _ _ _ h => withRetEntry_sound h.sound fun j _ _ => by
  split
  · exact State.removeRange_sound j (State.freeEntry_sound h.sound nofun)
  · exact State.removeRange_sound j h.sound

theorem bodyRemoveRetire_sound : BodySound bodyRemoveRetire := fun _ _ _ h =>
  withRetEntry_sound h.sound fun j _ _ => State.removeRange_sound j h.sound

/-! The commands on the log. -/

theorem bodyReadUe_sound : BodySound bodyReadUe := fun _ _ _ h => by
  unfold bodyReadUe
  split
  · exact h.sound
  · split <;> exact h.sound

theorem bodyAckUe_sound : BodySound bodyAckUe := fun _ _ _ h => by
  unfold bodyAckUe
  dsimp only
  split
  · exact h.sound
  · split
    · exact h.sound
    · split
      · exact h.sound
      · split <;> exact h.sound

theorem bodyReadUeOverflow_sound : BodySound bodyReadUeOverflow := fun _ _ _ h => by
  unfold bodyReadUeOverflow
  split
  · exact h.sound
  · dsimp only
    split <;> exact h.sound

/-! The actions of SCRUB_CONTROL. -/

theorem bodyScrubStart_sound : BodySound bodyScrubStart := fun _ _ _ h => withScrubChannel_sound h.sound fun ch => by
  split
  · exact h.sound
  · split
    · exact State.modScrub_sound h.sound ⟨rfl, rfl⟩
    · exact h.sound

theorem bodyScrubStop_sound : BodySound bodyScrubStop := fun _ _ _ h =>
  withScrubChannel_sound h.sound fun _ => State.modScrub_sound h.sound ⟨rfl, rfl⟩

theorem bodySetCursor_sound : BodySound bodySetCursor := fun _ _ _ h => withScrubChannel_sound h.sound fun ch => by
  split
  · exact h.sound
  · split
    · next within =>
      split
      · exact State.modScrub_cursor_sound h.sound rfl within
      · exact h.sound
    · exact h.sound

theorem bodySetPacing_sound : BodySound bodySetPacing := fun _ _ _ h => withScrubChannel_sound h.sound fun ch => by
  dsimp only
  split
  · exact State.modScrub_sound h.sound ⟨rfl, rfl⟩
  · exact h.sound

theorem bodySetHoldPolicy_sound : BodySound bodySetHoldPolicy := fun _ _ _ h => withScrubChannel_sound h.sound fun ch => by
  dsimp only
  split
  · exact h.sound
  · split
    · exact State.modScrub_sound h.sound (Scrub.setHoldPolicy_aims _ _ _ _)
    · exact h.sound

theorem bodySetTimeout_sound : BodySound bodySetTimeout := fun _ _ _ h => withScrubChannel_sound h.sound fun ch => by
  dsimp only
  split
  · exact State.modScrub_sound h.sound ⟨rfl, rfl⟩
  · exact h.sound

/-! ### What every command does -/

/-- What a command may rest on: the laws of a queue, of the scrub contexts and of the engine. -/
structure State.Upheld (s : State) : Prop where
  sound  : s.core.Sound
  scrub  : s.ScrubLaw
  engine : s.EngineLaw

/-- R164: the arbiter chooses while no mailbox is RUNNING. -/
theorem State.arbiterChoice_idle {s : State} {p : Port} (h : s.arbiterChoice = some p) : s.holdings.Idle := by
  have idle : s.engineIdle = true := by
    by_contra hi
    rw [State.arbiterChoice, if_neg hi] at h
    cases h
  rwa [State.engineIdle, Bool.and_eq_true, bne_iff_ne, bne_iff_ne] at idle

theorem State.Upheld.ready {s : State} {p : Port} (h : s.Upheld) (hp : s.arbiterChoice = some p) : (s.latch p).Ready where
  sound := by rw [State.core_latch]; exact h.sound
  purge := by
    have none : s.engine.purge = .none := (State.engineLaw_iff.mp h.engine).purge_none (State.arbiterChoice_idle hp)
    cases p <;> exact none
  quiet ch hl := by
    have quiet := fun down => (h.scrub ch).1 down
    cases p <;> exact (quiet hl).1

/-- R164, R165: the take of a command, by what its body does. -/
theorem State.Upheld.engineTake {s : State} (h : s.Upheld) {body : Body} (hb : BodySound body)
    (names : Word → Table Word 6 → Bool) (a : Admission) : (s.engineTake names a body).core.Sound := by
  unfold State.engineTake
  split
  · exact h.sound
  · next p hp =>
    have ready := h.ready hp
    split
    · unfold State.carryOut
      split
      · have carried := hb p ((s.latch p).mail p).latched (s.latch p) ready
        generalize body p ((s.latch p).mail p).latched (s.latch p) = x at carried
        obtain ⟨t, ⟨code, result⟩ | _⟩ := x
        · exact (t.core_complete p code result).symm ▸ carried
        · exact carried
      · rw [State.core_complete]
        exact ready.sound
    · exact h.sound

/-- R184: while RST_N is asserted nothing happens, and otherwise the meaning decides. -/
theorem whileRunning_sound {s t : State} {f : State → State} (h : s.whileRunning f = .next t) (hs : s.core.Sound)
    (hf : (f s).core.Sound) : t.core.Sound := by
  cases hr : s.rst with
  | true => rw [State.whileRunning_held hr] at h; cases h; exact hs
  | false => rw [State.whileRunning_running hr] at h; cases h; exact hf

theorem State.Upheld.event {s t : State} (law : s.Upheld) {f : State → State} (h : s.whileRunning f = .next t)
    (hf : (f s).core.Sound) : t.core.Sound := whileRunning_sound h law.sound hf

theorem State.Upheld.command {s t : State} (law : s.Upheld) {body : Body} {names : Word → Table Word 6 → Bool} {a : Admission}
    (h : s.whileRunning (fun s => s.engineTake names a body) = .next t) (hb : BodySound body) : t.core.Sound :=
  law.event h (law.engineTake hb names a)

theorem result0Read_core (s : State) (p : Port) (edge : Bool) (v : Word) (m : Mailbox) :
    (if edge then (s.drive p v).setMail p m else s.drive p v).core = s.core := by
  have driven : (s.drive p v).core = s.core := by cases p <;> rfl
  split
  · rw [State.core_setMail, driven]
  · exact driven

theorem fullReset_sound {s t : State} (h : execFullReset s = .next t) : t.core.Sound := by
  cases h
  exact (lawsHoldAfterReset : State.reset.Lawful).sound

theorem fullResetEnd_sound {s t : State} (h : execFullResetEnd s = .next t) (hs : s.core.Sound) : t.core.Sound := by
  cases h
  split <;> exact hs

theorem registerWriteIgnored_sound {s t : State} {p : Port} {index : Fin 64} {v : Word}
    (h : execRegisterWriteIgnored p index v s = .next t) (hs : s.core.Sound) : t.core.Sound := by
  unfold execRegisterWriteIgnored at h
  split at h
  · cases h; exact hs
  · cases h

theorem unknownKindFrame_sound {s t : State} {ch : Chan} {seq : BitVec 8} {kind : Byte}
    (h : execUnknownKindFrame ch seq kind s = .next t) (hs : s.core.Sound) : t.core.Sound := by
  unfold execUnknownKindFrame at h
  split at h
  · cases h
  · exact whileRunning_sound h hs (State.arrive_sound seq hs fun _ ht => State.modCounters_sound _ ht)

/-- Every command keeps the laws of a queue. -/
theorem State.Upheld.exec {c : Instr} {s t : State} (law : s.Upheld) (h : exec c s = .next t) : t.core.Sound := by
  have hs := law.sound
  unfold Machine.exec at h
  cases c with
  | fullReset => exact fullReset_sound h
  | fullResetEnd => exact fullResetEnd_sound h hs
  | pacingBaseTick =>
    have same : ((s.setScrubs (s.scrubs.map Scrub.lowerPacing)).setClock { s.clock with ticks := s.clock.ticks + 1 }).core =
        s.core := s.core_lowerPacing
    exact law.event h (same ▸ hs)
  | eventClockAdvance =>
    refine law.event h ?_
    split
    · have same : (s.lowerMs.setClock ⟨s.clock.time + 1, s.clock.ticks - Config.ticksPerMs⟩).core = s.core := s.core_lowerMs
      exact same ▸ hs
    · exact hs
  | commandWrite p v | paramWrite p k v | mailboxStatusWrite p v => exact law.event h ((s.core_setMail p _).symm ▸ hs)
  | result0Read p edge => exact law.event h ((result0Read_core s p edge _ _).symm ▸ hs)
  | eventClearWrite => exact law.event h hs
  | lineMaskWrite p v =>
    have same : (s.setLineMask p v).core = s.core := by cases p <;> rfl
    exact law.event h (same ▸ hs)
  | registerWriteIgnored => exact registerWriteIgnored_sound h hs
  | badCommand => exact law.command h fun _ _ _ h => h.sound
  | configureChannel => exact law.command h bodyConfigureChannel_sound
  | linkEnable => exact law.command h bodyLinkEnable_sound
  | linkDisable => exact law.command h bodyLinkDisable_sound
  | resyncLink => exact law.command h bodyResyncLink_sound
  | setPolicy => exact law.command h bodySetPolicy_sound
  | readCet => exact law.command h bodyReadCet_sound
  | findCet => exact law.command h bodyFindCet_sound
  | clearCetEntry => exact law.command h bodyClearCetEntry_sound
  | clearCetAll => exact law.command h bodyClearCetAll_sound
  | pinCet => exact law.command h bodyPinCet_sound
  | unpinCet => exact law.command h bodyUnpinCet_sound
  | startVerify => exact law.command h bodyStartVerify_sound
  | readRetire => exact law.command h bodyReadRetire_sound
  | findRetire => exact law.command h bodyFindRetire_sound
  | addRetire => exact law.command h bodyAddRetire_sound
  | confirmRetire => exact law.command h bodyConfirmRetire_sound
  | rejectRetire => exact law.command h bodyRejectRetire_sound
  | removeRetire => exact law.command h bodyRemoveRetire_sound
  | readUe => exact law.command h bodyReadUe_sound
  | ackUe => exact law.command h bodyAckUe_sound
  | readUeOverflow => exact law.command h bodyReadUeOverflow_sound
  | scrubStart => exact law.command h bodyScrubStart_sound
  | scrubStop => exact law.command h bodyScrubStop_sound
  | setCursor => exact law.command h bodySetCursor_sound
  | setPacing => exact law.command h bodySetPacing_sound
  | setHoldPolicy => exact law.command h bodySetHoldPolicy_sound
  | setTimeout => exact law.command h bodySetTimeout_sound
  | readCounters => exact law.command h bodyReadCounters_sound
  | injectReport => exact law.command h bodyInjectReport_sound
  | readStatus => exact law.command h fun _ _ _ h => h.sound
  | setAuthority => exact law.command h bodySetAuthority_sound
  | setServiceFirst => exact law.command h bodySetServiceFirst_sound
  | clearFatal => exact law.command h fun _ _ _ h => h.sound
  | engineReset => exact law.command h bodyEngineReset_sound
  | scrubControlBadAction => exact law.command h fun _ _ _ h => h.sound
  | purgeVisit =>
    refine law.event h ?_
    split
    · exact hs
    · next hg => exact State.purgeStep_sound hs hg
  | error ch seq | scrubReply ch seq =>
    exact law.event h (State.arrive_sound seq hs fun _ ht => State.joinQueue_sound _ (State.modCounters_sound _ ht))
  | hold ch seq =>
    exact law.event h (State.arrive_sound seq hs fun _ ht =>
      State.modScrub_sound (State.modCounters_sound _ ht) (Scrub.takeHold_aims _))
  | resume ch seq =>
    exact law.event h (State.arrive_sound seq hs fun _ ht =>
      State.modScrub_sound (State.modCounters_sound _ ht) (Scrub.takeResume_aims _))
  | sync ch seq => exact law.event h (State.arriveSync_sound seq hs)
  | unknownKindFrame => exact unknownKindFrame_sound h hs
  | frameCheckFailure ch => exact law.event h (State.arriveFailing_sound hs)
  | syncAttemptExpiry ch =>
    refine law.event h ?_
    split
    · next due => exact State.attemptExpiry_sound hs (by rw [due.1]; nofun)
    · exact hs
  | frameTransmission ch =>
    refine law.event h ?_
    split <;> exact hs
  | frameTransmissionEnd ch => exact law.event h hs
  | intakeTake => exact law.event h (State.take_sound hs)
  | issueEvent ch => exact law.event h (s.issue_sound ch hs)
  | pacingExpiry ch =>
    refine law.event h ?_
    split
    · exact State.modScrub_sound hs ⟨rfl, rfl⟩
    · exact hs
  | replyTimeout ch tag =>
    refine law.event h ?_
    split
    · exact hs
    · next q hq =>
      split
      · exact State.replyExpiry_sound hs hq
      · exact hs
  | holdCeilingExpiry ch =>
    refine law.event h ?_
    split
    · exact State.modScrub_sound (ch := ch) hs ⟨rfl, rfl⟩
    · exact hs
  | systemWindowExpiry position =>
    refine law.event h ?_
    split <;> exact hs
  | serviceWindowExpiry position =>
    refine law.event h ?_
    split
    · unfold State.escalate
      dsimp only
      split <;> exact hs
    · exact hs
  | leakExpiry =>
    refine law.event h ?_
    split
    · exact State.leakTable_sound hs
    · exact hs

/-! ### The laws along a step -/

/-- R1: every step from a lawful state keeps the laws of a queue. -/
theorem step_sound {s t : State} (law : s.Lawful) (h : step s = .next t) : t.core.Sound := by
  unfold step at h
  split at h
  · cases h; exact law.sound
  · next c rest _ => exact State.Upheld.exec (s := s.setPending rest) ⟨law.sound, law.scrub, law.engine⟩ h

/-- Settles O60: the laws of the verify queue, of the records, of the geometries and of the purge are kept together, as laws of what they
read of a state. -/
theorem verifyAndPurgeLawsKept : Obligations.VerifyAndPurgeLawsKept := by
  unfold Obligations.VerifyAndPurgeLawsKept
  exact ⟨fun s t law h => (step_sound law h).laws.1, fun s t law h => (step_sound law h).laws.2⟩

end Sys2Proof.Machine

/-! START_VERIFY: the job that it creates and its refusals (R33, R150, R151). -/

namespace Sys2Proof.Machine

theorem State.latch_createJob (s : State) (p : Port) (i : CetIdx) (ch : Chan) :
    (s.latch p).createJob i ch = (s.createJob i ch).asTaken (s.latch p) :=
  (congrArg (State.createJob · i ch) (s.latch_asTaken p)).trans (s.createJob_asTaken _ i ch)

theorem State.latch_verify (s : State) (p : Port) : (s.latch p).verify = s.verify := by cases p <;> rfl

/-- R150: the words that START_VERIFY returns, read from the state that it leaves. -/
def State.verifyWords (t : State) (i : CetIdx) : List Word :=
  [num (((t.entry i).map fun e => e.status.code).getD 0), num t.verify.jobs.length, t.generationWord]

theorem State.verifyWords_eq {t : State} {i : CetIdx} {e : CetEntry} (he : t.entry i = some e) :
    t.verifyWords i = [num e.status.code, num t.verify.jobs.length, t.cet.generation.setWidth 32] := by
  rw [State.verifyWords, he]
  rfl

/-- R150: START_VERIFY on a valid entry, with its refusals in order. -/
theorem State.Takes.startVerify {s : State} {p : Port} (h : s.Takes p 22) {i : CetIdx} {e : CetEntry}
    (hi : field (s.param p 0) 15 0 = i.val) (he : s.entry i = some e) : exec .startVerify s =
      .next (if e.status = .idle then
        if s.verify.jobs.length < Config.verifySize then (s.withJob i e).withOk p ((s.withJob i e).verifyWords i)
        else s.withRefusal p .full
      else s.withRefusal p .stateConflict) := by
  refine (h.run_entry.1 i e hi he).trans (congrArg _ ?_)
  dsimp only
  split
  · next idle =>
    rw [s.latch_verify p]
    split
    · rw [s.latch_createJob, ← State.createJob_eq_withJob he idle]
      exact State.answered_tables p (s.createJob_tables i e.key.channel) .ok
        (pages ((s.createJob i e.key.channel).verifyWords i) [] [])
    · exact s.answered_latch p _ _
  · exact s.answered_latch p _ _

/-- Settles O32: the refusals by the two tests of the body, and the three places in which the new job may find itself. -/
theorem startVerifyCreatesJob : Obligations.StartVerifyCreatesJob := by
  unfold Obligations.StartVerifyCreatesJob
  refine ⟨fun p s h => ⟨h.run_entry.2.2, fun i hi => ⟨h.run_entry.2.1 i hi, fun e he hs => ?_, fun e he hs full => ?_⟩⟩, ?_⟩
  · rw [h.startVerify hi he, if_neg hs]
  · rw [h.startVerify hi he, if_pos hs, if_neg (show ¬_ < Config.verifySize from not_lt.mpr full)]
  · intro p i e s h hi he hs room job withStatus gen
    have created : exec .startVerify s = .next ((s.withJob i e).withOk p ((s.withJob i e).verifyWords i)) := by
      rw [h.startVerify hi he, if_pos hs, if_pos (show _ < Config.verifySize from room)]
    rw [created]
    have entry (v : VerifyStatus) (jobs : List Job) : (withStatus v jobs).entry i = some { e with status := v } :=
      Table.get_set_self _ _ _
    refine ⟨fun hj => ?_, fun hj ha => ?_, fun hj ha => ?_⟩
    · have joined : s.withJob i e = withStatus .queued (s.verify.jobs ++ [job]) := if_pos hj
      rw [joined, State.verifyWords_eq (entry _ _),
        show (withStatus .queued (s.verify.jobs ++ [job])).verify.jobs.length = s.verify.jobs.length + 1 from List.length_append]
      rfl
    · have headed : s.withJob i e = withStatus .running [{ job with location := some ⟨e.key.rank, e.key.bank, e.lastRow⟩ }] :=
        (if_neg (not_not.mpr hj)).trans (if_pos ha)
      rw [headed, State.verifyWords_eq (entry _ _)]
      rfl
    · have aborted : s.withJob i e = { s with
          verify := { s.verify with lastAbort := some (.link, i) }
          events := { s.events with flags := s.events.flags ||| EventFlag.verifyAborted.mask } } :=
        (if_neg (not_not.mpr hj)).trans (if_neg ha)
      have held : (s.withJob i e).entry i = some e := by
        rw [aborted]
        exact he
      have empty : (s.withJob i e).verify.jobs.length = 0 := by
        rw [aborted]
        exact congrArg List.length hj
      rw [State.verifyWords_eq held, empty, hs, aborted]
      rfl

end Sys2Proof.Machine

/-! The count of a verify read in the head job, and the outcome that the last of them brings (R151, R153, R154). -/

namespace Sys2Proof.Machine

section
variable {s : State}

/-! ### The end of a read -/

/-- R153: a read that the head job owns. -/
theorem State.endRead_owned {ch : Chan} {tag : Tag} {number : BitVec 8} (h : s.verify.records.get ch = some ⟨tag, number, true⟩)
    (x : ReadResult) : s.endRead ch tag number (some x) = (s.setRecord ch none).countRead x := by
  simp only [State.endRead, h, and_self, if_true]

/-- R153: a read that no job owns. -/
theorem State.endRead_unowned {ch : Chan} {tag : Tag} {number : BitVec 8} (h : s.verify.records.get ch = some ⟨tag, number, false⟩)
    (x : ReadResult) : s.endRead ch tag number (some x) = s.setRecord ch none := by
  simp only [State.endRead, h, and_self, if_true, Bool.false_eq_true, if_false]

theorem Job.countRead_eq (j : Job) (x : ReadResult) : j.countRead x = { j with
    errored  := j.errored + (if x = .errored then 1 else 0)
    clean    := j.clean + (if x = .clean then 1 else 0)
    noAnswer := j.noAnswer + (if x = .noAnswer then 1 else 0) } := by
  cases x <;> rfl

/-- R153: a read below the reads total. -/
theorem State.countRead_below {j : Job} {rest : List Job} {x : ReadResult} (hj : s.verify.jobs = j :: rest)
    (h : (j.countRead x).counted < (j.countRead x).reads) : s.countRead x = s.setJobs (j.countRead x :: rest) := by
  simp only [State.countRead, hj, if_neg (not_le.mpr h)]

/-- R154: the read that brings the count to the reads total. -/
theorem State.countRead_last {j : Job} {rest : List Job} {x : ReadResult} (hj : s.verify.jobs = j :: rest)
    (h : (j.countRead x).reads ≤ (j.countRead x).counted) : s.countRead x = s.reachOutcome (j.countRead x) rest := by
  simp only [State.countRead, hj, if_pos h]

/-! ### The outcome -/

theorem State.propose_setJobs (s : State) (jobs : List Job) (r : Range) (ev : Evidence) :
    (s.setJobs jobs).propose r ev = ((s.propose r ev).1.setJobs jobs, (s.propose r ev).2) := by
  unfold State.propose
  rw [show (s.setJobs jobs).overlapping r = s.overlapping r from rfl, show (s.setJobs jobs).freeRetire = s.freeRetire from rfl]
  split
  · rfl
  · split <;> rfl

/-- R22: a proposal attempt does not read the queue. -/
theorem State.proposalAttempt_setJobs (s : State) (jobs : List Job) (i : CetIdx) :
    (s.setJobs jobs).proposalAttempt i = (s.proposalAttempt i).setJobs jobs := by
  unfold State.proposalAttempt
  rw [show (s.setJobs jobs).entry i = s.entry i from rfl]
  split
  · rfl
  · next e _ =>
    rw [show (s.setJobs jobs).geometry e.key.channel = s.geometry e.key.channel from rfl, State.propose_setJobs]
    generalize s.propose (e.key.range (s.geometry e.key.channel)) (.cet i) = answer
    obtain ⟨t, _ | _ | _⟩ := answer <;> rfl

/-- R22: of the entry a proposal attempt writes the link alone. -/
theorem State.proposalAttempt_entry {i : CetIdx} {e : CetEntry} (he : s.entry i = some e) :
    ∃ l, (s.proposalAttempt i).entry i = some { e with link := l } := by
  have kept := s.propose_cet (s.proposedRange e) (.cet i)
  rcases answer : s.propose (s.proposedRange e) (.cet i) with ⟨t, j | j | _⟩
  · exact ⟨some j, by rw [State.proposalAttempt_linked he (.inr answer), State.setEntry_entry]⟩
  · exact ⟨some j, by rw [State.proposalAttempt_linked he (.inl answer), State.setEntry_entry]⟩
  · rw [answer] at kept
    refine ⟨e.link, ?_⟩
    rw [State.proposalAttempt_full he answer, State.entry, kept]
    exact he

/-- R154: the entry of a job takes its outcome and becomes IDLE, and the job leaves the queue. -/
def State.decided (s : State) (j : Job) (rest : List Job) (e : CetEntry) : State :=
  ((s.setEntry j.cet (some { e with result := some (j.outcome, s.now), status := .idle })).setFlag .verifyDone).setJobs rest

/-- R154: the proposal attempt that a PERSISTENT outcome brings under ON_PERSISTENT. -/
def State.concluded (s : State) (j : Job) (rest : List Job) (e : CetEntry) : State :=
  if j.outcome = .persistent ∧ s.cet.policy.proposeMode = .onPersistent ∧ e.link = none then
    (s.decided j rest e).proposalAttempt j.cet
  else s.decided j rest e

/-- R151, R154: the outcome, the proposal that it brings and the next head. -/
theorem State.reachOutcome_eq {j : Job} {rest : List Job} {e : CetEntry} (he : s.entry j.cet = some e) :
    s.reachOutcome j rest = makeHead rest (s.concluded j rest e) := by
  have link (x : CetEntry) : ((s.setEntry j.cet (some x)).setFlag .verifyDone).unlinked j.cet = x.link.isNone := by
    rw [State.unlinked, show ((s.setEntry j.cet (some x)).setFlag .verifyDone).entry j.cet = some x from s.setEntry_entry _ _,
      Option.any_some]
  unfold State.reachOutcome State.concluded State.decided
  simp only [State.modEntry_eq he, link, State.proposalAttempt_setJobs, Bool.and_eq_true, decide_eq_true_eq,
    Option.isNone_iff_eq_none, and_assoc]
  refine congrArg (makeHead rest) ?_
  split <;> rfl

/-- R154: after its outcome the entry is IDLE and holds it. -/
theorem State.concluded_entry (s : State) (j : Job) (rest : List Job) (e : CetEntry) :
    ∃ l, (s.concluded j rest e).entry j.cet =
      some { e with result := some (j.outcome, s.now), status := .idle, link := l } := by
  have decided : (s.decided j rest e).entry j.cet = some { e with result := some (j.outcome, s.now), status := .idle } :=
    s.setEntry_entry _ _
  unfold State.concluded
  split
  · exact State.proposalAttempt_entry decided
  · exact ⟨e.link, decided⟩

theorem State.decided_tables (s : State) (j : Job) (rest : List Job) (e : CetEntry) : TablesOnly s (s.decided j rest e) :=
  ((s.setEntry_tables _ _).trans (State.setFlag_tables _ _)).trans (State.setJobs_tables _ _)

theorem State.concluded_tables (s : State) (j : Job) (rest : List Job) (e : CetEntry) :
    TablesOnly (s.decided j rest e) (s.concluded j rest e) := by
  unfold State.concluded
  split
  · exact State.proposalAttempt_tables _ _
  · exact .refl _

/-- R22: a proposal attempt leaves the verify queue as it is. -/
theorem State.proposalAttempt_verify (s : State) (i : CetIdx) : (s.proposalAttempt i).verify = s.verify := by
  have propose (r : Range) (ev : Evidence) : (s.propose r ev).1.verify = s.verify := by
    unfold State.propose
    split
    · rfl
    · split <;> rfl
  unfold State.proposalAttempt
  split
  · rfl
  · next e _ =>
    have answer := propose (e.key.range (s.geometry e.key.channel)) (.cet i)
    split <;> (next h => rw [h] at answer; exact answer)

theorem State.concluded_verify (s : State) (j : Job) (rest : List Job) (e : CetEntry) :
    (s.concluded j rest e).verify = { s.verify with jobs := rest } := by
  unfold State.concluded
  split
  · exact State.proposalAttempt_verify _ _
  · rfl

/-- R153, R154: the read that brings the outcome of the head job. -/
theorem State.endRead_last {ch : Chan} {tag : Tag} {number : BitVec 8} {j : Job} {rest : List Job} {x : ReadResult}
    {e : CetEntry} (owned : s.verify.records.get ch = some ⟨tag, number, true⟩) (hj : s.verify.jobs = j :: rest)
    (last : (j.countRead x).reads ≤ (j.countRead x).counted) (he : s.entry j.cet = some e) :
    s.endRead ch tag number (some x) = makeHead rest ((s.setRecord ch none).concluded (j.countRead x) rest e) := by
  have cet : (j.countRead x).cet = j.cet := by cases x <;> rfl
  have entry : (s.setRecord ch none).entry (j.countRead x).cet = some e := by rw [cet]; exact he
  rw [State.endRead_owned owned, State.countRead_last (s := s.setRecord ch none) hj last, State.reachOutcome_eq entry]

theorem makeHead_records (jobs : List Job) (s : State) : (makeHead jobs s).verify.records = s.verify.records := by
  obtain ⟨-, -, -, -, records⟩ := makeHead_kept jobs s
  exact records

/-- R151: the frame of the next head. -/
theorem makeHead_frame (jobs : List Job) (s : State) : makeHead jobs s = { s with
    cet := (makeHead jobs s).cet, verify := (makeHead jobs s).verify,
    events := { s.events with flags := (makeHead jobs s).events.flags } } := by
  have tables := makeHead_tables jobs s
  obtain ⟨-, retire, -⟩ := makeHead_kept jobs s
  calc makeHead jobs s
      = { s with
          cet := (makeHead jobs s).cet, retire := (makeHead jobs s).retire, verify := (makeHead jobs s).verify,
          events := (makeHead jobs s).events } := tables.frame
    _ = _ := by rw [retire, ← tables.events.1]

end

/-- Settles O34: the two records by `endRead_owned` and `endRead_unowned`; the outcome by the state in which it is
written (`concluded`) and the head that `makeHead` then finds. -/
theorem verifyReadsAreCounted : Obligations.VerifyReadsAreCounted := by
  unfold Obligations.VerifyReadsAreCounted
  intro ch tag number x j rest s hj k freed
  have counted : k = j.countRead x := (Job.countRead_eq j x).symm
  have last (owned : s.verify.records.get ch = some ⟨tag, number, true⟩) (enough : k.reads ≤ k.counted) {e : CetEntry}
      (he : s.entry j.cet = some e) :
      s.endRead ch tag number (some x) = makeHead rest ((s.setRecord ch none).concluded k rest e) := by
    rw [counted] at enough ⊢
    exact State.endRead_last owned hj enough he
  refine ⟨fun owned below => ?_, fun unowned => State.endRead_unowned unowned x, fun owned enough left e he => ?_,
    fun owned enough e he => ?_⟩
  · rw [counted] at below ⊢
    rw [State.endRead_owned owned, State.countRead_below (s := s.setRecord ch none) hj below]
    rfl
  · have entry := makeHead_entry_of_not_mem rest ((s.setRecord ch none).concluded k rest e) j.cet left
    obtain ⟨l, written⟩ := (s.setRecord ch none).concluded_entry k rest e
    rw [last owned enough he]
    refine ⟨?_, ?_, ?_, ?_, fun mem => left ((makeHead_jobs rest _).mem mem)⟩
    · rw [makeHead_records, State.concluded_verify]
      exact Table.get_set_self _ _ _
    · refine (makeHead_tables _ _).flagged ((State.concluded_tables _ _ _ _).flagged ?_)
      exact (State.flagged_setFlag _ .verifyDone .verifyDone).trans (by simp)
    · rw [entry, written]; rfl
    · rw [entry, written]; rfl
  · intro outcome ended written proposed
    have same : (s.setRecord ch none).concluded k rest e = proposed := rfl
    rw [last owned enough he, same]
    have links : TablesOnly (s.setRecord ch none) proposed :=
      (State.decided_tables _ k rest e).trans (State.concluded_tables _ _ _ _)
    have head := makeHead_headChange rest proposed
    rw [links.passedOver, links.fromHead] at head
    refine ⟨head, ?_, makeHead_frame _ _⟩
    rw [makeHead_records, ← same, State.concluded_verify]
    rfl

end Sys2Proof.Machine

/-! The routes of a scrub reply: stale, PATROL and VERIFY (R95 to R98, R100, R153). -/

namespace Sys2Proof

/-- R96: CLEAN and REFUSED replies are never malformed. -/
theorem ScrubReply.not_malformed_of_result {r : ScrubReply} (h : r.result = .clean ∨ r.result = .refused) : r.malformed = false := by
  rcases h with h | h <;> simp [ScrubReply.malformed, h]

theorem ScrubReply.malformed_of_errorCount {r : ScrubReply} (h : r.result = .corrected ∨ r.result = .uncorrectable)
    (zero : r.errorCount = 0) : r.malformed = true := by
  rcases h with h | h <;> simp [ScrubReply.malformed, h, zero]

theorem ScrubReply.not_malformed_of_errorCount {r : ScrubReply} (nonzero : r.errorCount ≠ 0) : r.malformed = false := by
  simp only [ScrubReply.malformed, beq_eq_false_iff_ne.mpr nonzero, Bool.and_false]

end Sys2Proof

namespace Sys2Proof.Machine

section
variable {s : State} {ch : Chan} {r : ScrubReply} {q : Request}

/-- R95: a stale reply. -/
theorem State.classify_stale (h : ∀ q, (s.scrub ch).tags.get r.tag = some q → q.number ≠ r.request) :
    s.classify ch (.reply r) = s.modClassifier ch (fun c => { c with stale := satInc c.stale }) := by
  have unmatched : s.matching ch r = none := by
    unfold State.matching
    split
    · next q hq => exact if_neg (h q hq)
    · rfl
  simp only [State.classify, State.classifyReply, unmatched]

theorem State.matching_eq (hq : (s.scrub ch).tags.get r.tag = some q) (hn : q.number = r.request) : s.matching ch r = some q := by
  simp only [State.matching, hq, if_pos hn]

/-- R96: a malformed reply to a request. -/
theorem State.classify_malformed (hq : (s.scrub ch).tags.get r.tag = some q) (hn : q.number = r.request)
    (h : r.malformed = true) : s.classify ch (.reply r) = (s.freeTag ch r.tag).malformedReply ch r q := by
  simp only [State.classify, State.classifyReply, State.matching_eq hq hn, h, if_true]

/-- R97: a reply to a PATROL request. -/
theorem State.classify_patrol (hq : (s.scrub ch).tags.get r.tag = some q) (hn : q.number = r.request) (hk : q.kind = .patrol)
    (h : r.malformed = false) : s.classify ch (.reply r) = (s.freeTag ch r.tag).patrolReply ch r q := by
  simp only [State.classify, State.classifyReply, State.matching_eq hq hn, h, hk, Bool.false_eq_true, if_false]

/-- R98: a reply to a VERIFY request. -/
theorem State.classify_verify (hq : (s.scrub ch).tags.get r.tag = some q) (hn : q.number = r.request) (hk : q.kind = .verify)
    (h : r.malformed = false) : s.classify ch (.reply r) = (s.freeTag ch r.tag).verifyReply ch r q := by
  simp only [State.classify, State.classifyReply, State.matching_eq hq hn, h, hk, Bool.false_eq_true, if_false]

/-- R97, R145: the tag is freed and the row is skipped, in one change of the scrub context. -/
theorem State.countSkipped_freeTag (s : State) (ch : Chan) (tag : Tag) : (s.freeTag ch tag).countSkipped ch = { s with
    scrubs := s.scrubs.modify ch (fun c => { c with
      tags := c.tags.set tag none, timeoutRun := 0,
      counters := { c.counters with skippedFailed := satInc c.counters.skippedFailed } }) } :=
  congrArg (fun scrubs => { s with scrubs }) (s.scrubs.modify_modify ch
    (fun c => { c with tags := c.tags.set tag none, timeoutRun := 0 })
    (fun c => { c with counters := { c.counters with skippedFailed := satInc c.counters.skippedFailed } }))

/-- R96, R100: a malformed reply to a PATROL request is counted twice. -/
theorem State.malformedReply_patrol (s : State) (hk : q.kind = .patrol) :
    s.malformedReply ch r q = (s.countMalformed ch).countSkipped ch := by
  simp only [State.malformedReply, hk]

/-- R96, R153: a malformed reply to a VERIFY request is no answer. -/
theorem State.malformedReply_verify (s : State) (hk : q.kind = .verify) :
    s.malformedReply ch r q = (s.countMalformed ch).endRead ch r.tag q.number (some .noAnswer) := by
  simp only [State.malformedReply, hk]

/-- R93: a corrected error outside every CONFIRMED range. -/
theorem State.routeCorrected_cet {l : Loc} (h : s.lookup l.channel l.rank l.bank l.row = none) (cls : CeClass) (origin : Origin) :
    s.routeCorrected l cls origin = s.takeCe ⟨l, cls, origin, s.now⟩ := by
  simp only [State.routeCorrected, State.lookupLoc, h]

/-- R93: a corrected error inside a CONFIRMED range. -/
theorem State.routeCorrected_suppressed {l : Loc} {i : RetIdx} (h : s.lookup l.channel l.rank l.bank l.row = some i) (cls : CeClass)
    (origin : Origin) : s.routeCorrected l cls origin = s.suppress i := by
  simp only [State.routeCorrected, State.lookupLoc, h]

/-- R97: the routes of a reply to a PATROL request. -/
theorem State.patrolReply_routes (s : State) (ch : Chan) (r : ScrubReply) (q : Request) :
    (r.result = .clean → s.patrolReply ch r q = s) ∧
    (r.result = .refused → s.patrolReply ch r q = s.countSkipped ch) ∧
    (r.result = .corrected → s.patrolReply ch r q = s.routeCorrected (q.loc ch r.column) r.cls .patrol) ∧
    (r.result = .uncorrectable → s.patrolReply ch r q = s.routeUncorrectable (q.loc ch r.column) .uncorrectable .patrol) := by
  unfold State.patrolReply
  cases r.result <;> simp

/-- R98: the verify queue is told the end of the read, before an uncorrectable error goes to the UEL. -/
theorem State.verifyReply_counted (s : State) (ch : Chan) (r : ScrubReply) (q : Request) (h : r.result ≠ .uncorrectable) :
    s.verifyReply ch r q = s.endRead ch r.tag q.number (some r.result.counted) := if_neg h

theorem State.verifyReply_uncorrectable (s : State) (ch : Chan) (r : ScrubReply) (q : Request) (h : r.result = .uncorrectable) :
    s.verifyReply ch r q =
      (s.endRead ch r.tag q.number (some .errored)).routeUncorrectable (q.loc ch r.column) .uncorrectable .verify := by
  simp only [State.verifyReply, h, if_true, ReplyResult.counted]

end

/-- Settles O37: a matching reply is malformed or not by its result and its error count; `s'` is the state after its tag
is freed. -/
theorem scrubReplyRoutes : Obligations.ScrubReplyRoutes := by
  unfold Obligations.ScrubReplyRoutes
  refine ⟨fun ch r s => ⟨State.classify_stale, fun q hq hn hk => ?_⟩, fun ch r q s hq hn hk => ?_⟩
  · intro freed skipped s' l
    have routed (h : r.malformed = false) : s.classify ch (.reply r) = s'.patrolReply ch r q := State.classify_patrol hq hn hk h
    have read (h : r.errorCount ≠ 0) := routed (ScrubReply.not_malformed_of_errorCount h)
    obtain ⟨clean, refused, corrected, uncorrectable⟩ := s'.patrolReply_routes ch r q
    refine ⟨fun h => ?_, fun h => ?_, fun h zero => ?_, fun h nonzero out => ?_, fun h nonzero i inside => ?_, fun h nonzero => ?_⟩
    · exact (routed (ScrubReply.not_malformed_of_result (.inl h))).trans (clean h)
    · exact ((routed (ScrubReply.not_malformed_of_result (.inr h))).trans (refused h)).trans (s.countSkipped_freeTag ch r.tag)
    · rw [State.classify_malformed hq hn (ScrubReply.malformed_of_errorCount h zero), State.malformedReply_patrol _ hk]
      exact (s.countMalformed ch).countSkipped_freeTag ch r.tag
    · exact ((read nonzero).trans (corrected h)).trans (State.routeCorrected_cet out r.cls .patrol)
    · exact ((read nonzero).trans (corrected h)).trans (State.routeCorrected_suppressed inside r.cls .patrol)
    · exact (read nonzero).trans (uncorrectable h)
  · intro s' l ended
    have told (h : r.malformed = false) : s.classify ch (.reply r) = s'.verifyReply ch r q := State.classify_verify hq hn hk h
    have counted (x : ReplyResult) (h : r.result = x) (other : x ≠ .uncorrectable) : s'.verifyReply ch r q = ended x.counted :=
      h ▸ s'.verifyReply_counted ch r q (h ▸ other)
    refine ⟨fun h => ?_, fun h => ?_, fun h nonzero => ?_, fun h nonzero => ?_, fun h zero => ?_⟩
    · exact (told (ScrubReply.not_malformed_of_result (.inl h))).trans (counted .clean h (by decide))
    · exact (told (ScrubReply.not_malformed_of_result (.inr h))).trans (counted .refused h (by decide))
    · exact (told (ScrubReply.not_malformed_of_errorCount nonzero)).trans (counted .corrected h (by decide))
    · exact (told (ScrubReply.not_malformed_of_errorCount nonzero)).trans (s'.verifyReply_uncorrectable ch r q h)
    · exact (State.classify_malformed hq hn (ScrubReply.malformed_of_errorCount h zero)).trans (State.malformedReply_verify _ hk)

end Sys2Proof.Machine

/-! The mailboxes: the writes of COMMAND, PARAM and the status register, and the read of RESULT0 (R161 to R163, R185, R186). -/

namespace Sys2Proof.Machine

/-- A field of a word as its bits taken out. -/
theorem field_eq_extract (w : Word) (hi lo : Nat) : field w hi lo = (w.extractLsb' lo (hi + 1 - lo)).toNat := by
  simp [field, BitVec.extractLsb'_toNat, Nat.shiftRight_eq_div_pow]

/-- The lowest bit of a field is its number modulo 2. -/
theorem field_low_bit (w : Word) {hi lo : Nat} (h : lo ≤ hi) : (field w hi lo).testBit 0 = w.getLsbD lo := by
  rw [field_testBit]
  simp only [decide_eq_true (show 0 < hi + 1 - lo by omega), Bool.true_and, Nat.add_zero]

section
variable {m : Mailbox}

/-- R161, R162: a mailbox with a command under way takes no write of its command and its parameters. -/
theorem Mailbox.not_free (h : m.state = .pending ∨ m.state = .running) : ¬(m.state = .empty ∨ m.state = .done) := by
  rcases h with h | h <;> simp [h]

theorem Mailbox.writeCommand_free (h : m.state = .empty ∨ m.state = .done) (v : Word) : m.writeCommand v =
    { m with command := v, result := pages [] [] [], code := .none, page := 0, state := .pending } := if_pos h

theorem Mailbox.writeCommand_busy (h : m.state = .pending ∨ m.state = .running) (v : Word) :
    m.writeCommand v = { m with collision := true } := if_neg (Mailbox.not_free h)

theorem Mailbox.writeParam_free (h : m.state = .empty ∨ m.state = .done) (k : Fin 6) (v : Word) :
    m.writeParam k v = { m with params := m.params.set k v } := if_pos h

theorem Mailbox.writeParam_busy (h : m.state = .pending ∨ m.state = .running) (k : Fin 6) (v : Word) :
    m.writeParam k v = { m with collision := true } := if_neg (Mailbox.not_free h)

theorem Mailbox.writeStatus_page (m : Mailbox) (v : Word) : (m.writeStatus v).page.val = (v.extractLsb' 8 2).toNat := by
  have page : field v 9 8 = (v.extractLsb' 8 2).toNat := field_eq_extract v 9 8
  have fits : field v 9 8 < 4 := page ▸ (v.extractLsb' 8 2).isLt
  exact (Nat.mod_eq_of_lt fits).trans page

theorem Mailbox.writeStatus_collision (m : Mailbox) (v : Word) :
    (m.writeStatus v).collision = (m.collision && !v.getLsbD 16) := by
  show (if v.getLsbD 16 = true then false else m.collision) = _
  cases v.getLsbD 16 <;> simp

/-- R163: a page beyond the three reads as 0. -/
theorem Mailbox.resultWord_eq (m : Mailbox) (k : Fin 6) :
    m.resultWord k = if h : m.page.val < 3 then (m.result.get ⟨m.page.val, h⟩).get k else 0 := by
  unfold Mailbox.resultWord finOf
  by_cases h : m.page.val < 3 <;> simp only [h, dite_true, dite_false]

end

section
variable {s : State} (p : Port) (hr : s.rst = false)
include hr

theorem exec_commandWrite (v : Word) : exec (.commandWrite p v) s = .next (s.setMail p ((s.mail p).writeCommand v)) :=
  State.whileRunning_running hr (fun s => s.setMail p ((s.mail p).writeCommand v))

theorem exec_paramWrite (k : Fin 6) (v : Word) :
    exec (.paramWrite p k v) s = .next (s.setMail p ((s.mail p).writeParam k v)) :=
  State.whileRunning_running hr (fun s => s.setMail p ((s.mail p).writeParam k v))

theorem exec_mailboxStatusWrite (v : Word) :
    exec (.mailboxStatusWrite p v) s = .next (s.setMail p ((s.mail p).writeStatus v)) :=
  State.whileRunning_running hr (fun s => s.setMail p ((s.mail p).writeStatus v))

/-- R163, R186: the value is driven, and at the edge a DONE mailbox becomes EMPTY. -/
theorem exec_result0Read (edge : Bool) : exec (.result0Read p edge) s = .next
    ((s.drive p (s.readRegister p 10)).setMail p { s.mail p with
      state := if edge = true ∧ (s.mail p).state = .done then .empty else (s.mail p).state }) := by
  show execResult0Read p edge s = _
  rw [execResult0Read, State.whileRunning_running hr]
  refine congrArg _ ?_
  cases edge with
  | false => cases p <;> rfl
  | true =>
    simp only [Mailbox.readResult0, if_true, true_and]
    split <;> rfl

end

/-- Settles O7: each write by the state of the mailbox, EMPTY and DONE alike and PENDING and RUNNING alike. -/
theorem mailboxWrites : Obligations.MailboxWrites := by
  unfold Obligations.MailboxWrites
  refine ⟨fun p v s hr => ?_, fun p k v s hr => ⟨fun free => ?_, fun busy => ?_, ?_⟩⟩
  · rw [exec_commandWrite p hr]
    cases hm : (s.mail p).state with
    | empty => rw [Mailbox.writeCommand_free (.inl hm)]; rfl
    | done => rw [Mailbox.writeCommand_free (.inr hm)]; rfl
    | pending => rw [Mailbox.writeCommand_busy (.inl hm)]
    | running => rw [Mailbox.writeCommand_busy (.inr hm)]
  · refine ⟨(s.mail p).writeParam k v, exec_paramWrite p hr k v, ?_⟩
    rw [Mailbox.writeParam_free free]
    exact ⟨rfl, Table.get_set_self _ _ _, fun j hj => Table.get_set_ne _ _ hj⟩
  · rw [exec_paramWrite p hr, Mailbox.writeParam_busy busy]
  · exact ⟨(s.mail p).writeStatus v, exec_mailboxStatusWrite p hr v, rfl, Mailbox.writeStatus_page _ v,
      Mailbox.writeStatus_collision _ v⟩

/-- Settles O8: the state that the read leaves, field by field for each port. -/
theorem resultReadEmptiesDoneMailbox : Obligations.ResultReadEmptiesDoneMailbox := by
  unfold Obligations.ResultReadEmptiesDoneMailbox
  intro p edge s hr
  have word : s.readRegister p 10 = _ := (s.mail p).resultWord_eq 0
  refine ⟨_, exec_result0Read p hr edge, ?_⟩
  cases p with
  | system => exact ⟨rfl, rfl, rfl, rfl, word⟩
  | service => exact ⟨rfl, rfl, rfl, rfl, word⟩

end Sys2Proof.Machine

/-! The refusals of the command engine and the takes that do not occur (R52, R59, R132, R143, R164, R166). -/

namespace Sys2Proof.Machine

/-! ### Refusals before a command is carried out -/

/-- R166: a command whose body is a refusal. -/
theorem State.Chosen.run_refused {s : State} {p : Port} {names : Word → Table Word 6 → Bool} (h : s.Chosen p)
    (hn : names (s.mail p).command (s.mail p).params = true) (code : ResultCode) :
    s.whileRunning (fun s => s.engineTake names .any fun _ _ s => (s, refusal code)) = .next (s.withRefusal p code) := by
  rw [State.whileRunning_running h.1, State.engineTake_answered h _ hn rfl]
  exact congrArg _ (s.answered_latch p _ _)

theorem namesNone_of_not_mem {w : Word} (h : w.toNat ∉ commandCodes) (ps : Table Word 6) : namesNone w ps = true := by
  simpa [namesNone] using h

/-- R143: codes above 5 name no action. -/
theorem actionUnknown_of_le {ps : Table Word 6} (h : 6 ≤ field (ps.get 0) 11 8) : actionUnknown 64 ps = true := by
  have beyond : 5 < scrubAction ps := h
  simp [actionUnknown, codeIs, scrubControlCode, beyond]

/-- R166: a service-only command from the System port. -/
theorem State.Chosen.run_system_denied {s : State} {n : Nat} (h : s.Chosen .system)
    (hc : (s.mail .system).command = BitVec.ofNat 32 n) (body : Body) :
    s.whileRunning (fun s => s.engineTake (codeIs n) .serviceOnly body) = .next (s.withRefusal .system .notPermitted) :=
  h.run_denied body (State.Takes.named ⟨h, hc⟩) rfl

/-- R52, R166: a retirement command from a port that the authority denies. -/
theorem State.Chosen.run_authority_denied {s : State} {p : Port} {n : Nat} (h : s.Chosen p)
    (ha : s.engine.authority.admits p = false) (hc : (s.mail p).command = BitVec.ofNat 32 n) (body : Body) :
    s.whileRunning (fun s => s.engineTake (codeIs n) .authority body) = .next (s.withRefusal p .notPermitted) :=
  h.run_denied body (State.Takes.named ⟨h, hc⟩) (by cases p <;> exact ha)

theorem Authority.not_admits {a : Authority} {p : Port}
    (h : (a = .systemOnly ∧ p = .service) ∨ (a = .serviceOnly ∧ p = .system)) : a.admits p = false := by
  rcases h with ⟨rfl, rfl⟩ | ⟨rfl, rfl⟩ <;> rfl

/-- Settles O12: the two rows whose body is a refusal, and the two admissions that deny a port. -/
theorem engineRefusals : Obligations.EngineRefusals := by
  unfold Obligations.EngineRefusals
  refine fun p s h => ⟨fun hc => ?_, fun hc ha => ?_, fun hp => ?_, fun ha => ?_⟩
  · exact h.run_refused (namesNone_of_not_mem hc _) .badCommand
  · exact h.run_refused (by rw [hc]; exact actionUnknown_of_le ha) .badParam
  · subst hp
    exact ⟨fun hc => h.run_system_denied hc _, fun hc => h.run_system_denied hc _, fun hc => h.run_system_denied hc _,
      fun hc => h.run_system_denied hc _⟩
  · have denied := Authority.not_admits ha
    exact ⟨fun hc => h.run_authority_denied denied hc _, fun hc => h.run_authority_denied denied hc _,
      fun hc => h.run_authority_denied denied hc _, fun hc => h.run_authority_denied denied hc _⟩

/-! ### Takes that do not occur -/

section
variable {s : State}

/-- R184: an event that changes nothing, whether RST_N is asserted or not. -/
theorem State.whileRunning_idle {f : State → State} (h : f s = s) : s.whileRunning f = .next s := by
  rw [State.whileRunning, h, ite_self]

/-- R164: the arbiter takes no command while one is RUNNING and while none is PENDING. -/
theorem State.arbiterChoice_none (h : s.sysMail.state = .running ∨ s.svcMail.state = .running ∨
    (s.sysMail.state ≠ .pending ∧ s.svcMail.state ≠ .pending)) : s.arbiterChoice = none := by
  unfold State.arbiterChoice State.engineIdle
  rcases h with sys | svc | ⟨sys, svc⟩
  · simp [sys]
  · simp [svc]
  · simp [beq_eq_false_iff_ne.mpr sys, beq_eq_false_iff_ne.mpr svc]

theorem State.engineTake_idle (h : s.arbiterChoice = none) (names : Word → Table Word 6 → Bool) (a : Admission) (body : Body) :
    s.whileRunning (fun s => s.engineTake names a body) = .next s :=
  State.whileRunning_idle (by rw [State.engineTake, h])

variable {ch : Chan}

theorem State.issue_inactive (h : (s.link ch).state ≠ .active) : s.issue ch = s := by
  simp [State.issue, State.linkActive, h]

/-- R131: without an IDLE tag no claimant is served. -/
theorem State.issue_busy (h : ∀ tag, (s.scrub ch).tags.get tag ≠ none) : s.issue ch = s := by
  have none_idle : (s.scrub ch).idleTag = none :=
    Table.find_eq_none.mpr fun tag => by simpa [Option.isSome_iff_ne_none] using h tag
  simp [State.issue, none_idle]

theorem State.issue_unclaimed (hv : s.verifyReady ch = none) (hp : s.patrolReady ch = false) : s.issue ch = s := by
  unfold State.issue
  split
  · split
    · rfl
    · rw [hv, hp]; rfl
  · rfl

/-- R132, R152: the head job is no ready claimant of a channel. -/
theorem State.verifyReady_none (h : ∀ j, s.verify.jobs.head? = some j →
    j.channel ≠ ch ∨ j.reads ≤ j.issued ∨ s.verify.records.get ch ≠ none ∨ (s.scrub ch).holdFlag = true) :
    s.verifyReady ch = none := by
  unfold State.verifyReady
  split
  · rfl
  · next j rest hj =>
    refine if_neg fun ⟨channel, more, record, hold⟩ => ?_
    rcases h j (by rw [hj]; rfl) with other | done | read | held
    · exact other channel
    · exact absurd more (not_lt.mpr done)
    · exact read record
    · exact Bool.false_ne_true (hold.symm.trans held)

theorem State.patrolReady_false
    (h : (s.scrub ch).patrol = .stopped ∨ (s.scrub ch).patrol = .held ∨ (s.scrub ch).stepDue = false) :
    s.patrolReady ch = false := by
  rcases h with h | h | h <;> simp [State.patrolReady, h]

end

/-- Settles O13: no choice of the arbiter, no ready claimant and no purge in progress. -/
theorem nothingToTakeChangesNothing : Obligations.NothingToTakeChangesNothing := by
  unfold Obligations.NothingToTakeChangesNothing
  refine ⟨fun s h c hc => ?_, fun ch s h => ?_, fun s h => ?_⟩
  · have idle := State.engineTake_idle (State.arbiterChoice_none h)
    fin_cases hc <;> exact idle _ _ _
  · refine State.whileRunning_idle (f := (State.issue · ch)) ?_
    rcases h with down | busy | ⟨verify, patrol⟩
    · exact State.issue_inactive down
    · exact State.issue_busy busy
    · exact State.issue_unclaimed (State.verifyReady_none verify) (State.patrolReady_false patrol)
  · show execPurgeVisit s = _
    exact State.whileRunning_idle (by rw [h])

/-! ### The service-only settings (R172 to R174) -/

theorem authorityOfCode_code (a : Authority) : authorityOfCode a.code = some a := by cases a <;> rfl

theorem authorityOfCode_none {n : Nat} (h : 3 ≤ n) : authorityOfCode n = none := by
  match n, h with
  | _ + 3, _ => rfl

theorem boolOfCode_toNat (b : Bool) : boolOfCode b.toNat = some b := by cases b <;> rfl

section
variable {s : State}

theorem State.Takes.setAuthority (h : s.Takes .service 80) {a : Authority} (ha : s.param .service 0 = num a.code) :
    exec .setAuthority s = .next (({ s with engine := { s.engine with authority := a } } : State).withOk .service
      [num s.engine.authority.code, num a.code]) := by
  refine (h.run_service bodySetAuthority).trans (congrArg _ ?_)
  have code : authorityOfCode ((s.mail .service).params.get 0).toNat = some a := by
    rw [toNat_of_num (w := (s.mail .service).params.get 0) ha (by cases a <;> decide), authorityOfCode_code]
  simp only [bodySetAuthority, code]
  rfl

theorem State.Takes.setAuthority_unnamed (h : s.Takes .service 80) (hb : 3 ≤ (s.param .service 0).toNat) :
    exec .setAuthority s = .next (s.withRefusal .service .badParam) := by
  refine (h.run_service bodySetAuthority).trans (congrArg _ ?_)
  have code : authorityOfCode ((s.mail .service).params.get 0).toNat = none := authorityOfCode_none hb
  simp only [bodySetAuthority, code]
  exact s.answered_latch .service _ _

theorem State.Takes.setServiceFirst (h : s.Takes .service 81) {b : Bool} (hb : s.param .service 0 = num b.toNat) :
    exec .setServiceFirst s = .next (({ s with engine := { s.engine with serviceFirst := b } } : State).withOk .service
      [num s.engine.serviceFirst.toNat, num b.toNat]) := by
  refine (h.run_service bodySetServiceFirst).trans (congrArg _ ?_)
  have code : boolOfCode ((s.mail .service).params.get 0).toNat = some b := by
    rw [toNat_of_num (w := (s.mail .service).params.get 0) hb (by cases b <;> decide), boolOfCode_toNat]
  simp only [bodySetServiceFirst, code]
  rfl

theorem State.Takes.setServiceFirst_unnamed (h : s.Takes .service 81) (hb : 2 ≤ (s.param .service 0).toNat) :
    exec .setServiceFirst s = .next (s.withRefusal .service .badParam) := by
  refine (h.run_service bodySetServiceFirst).trans (congrArg _ ?_)
  have code : boolOfCode ((s.mail .service).params.get 0).toNat = none := boolOfCode_none hb
  simp only [bodySetServiceFirst, code]
  exact s.answered_latch .service _ _

theorem State.Takes.clearFatal (h : s.Takes .service 82) : exec .clearFatal s = .next
    (({ s with events := { s.events with fatalLatch := false, escalationCause := false, overflowCause := false } } : State).withOk
      .service [num s.events.fatalLatch.toNat]) :=
  h.run_service bodyClearFatal

end

/-- Settles O14: each command by the value that its code names. -/
theorem serviceOnlySettings : Obligations.ServiceOnlySettings := by
  unfold Obligations.ServiceOnlySettings
  exact fun s => ⟨fun h => ⟨fun a ha => h.setAuthority ha, h.setAuthority_unnamed⟩,
    fun h => ⟨fun b hb => h.setServiceFirst hb, h.setServiceFirst_unnamed⟩, fun h => h.clearFatal⟩

end Sys2Proof.Machine

/-! READ_COUNTERS and READ_STATUS, and the words that they return (R124, R145, R158, R170, R171, R188). -/

namespace Sys2Proof.Machine

/-! ### READ_COUNTERS and READ_STATUS -/

section
variable {s : State} {p : Port} {ch : Chan}

/-- R170: the three pages of READ_COUNTERS. -/
def State.counterPages (s : State) (ch : Chan) : Pages :=
  pages (linkPage (s.link ch).counters) (tablePage (s.classifier.get ch) (s.scrub ch).counters s.cet s.retire) (scrubPage (s.scrub ch))

theorem State.latch_counterPages (s : State) (p : Port) (ch : Chan) : (s.latch p).counterPages ch = s.counterPages ch := by
  cases p <;> rfl

theorem State.latch_clearCounters (s : State) (p : Port) (ch : Chan) :
    (s.latch p).clearCounters ch = (s.clearCounters ch).asTaken (s.latch p) := by cases p <;> rfl

/-- R170: READ_COUNTERS of a channel, by what its clear code names. -/
theorem State.Takes.readCounters (h : s.Takes p 65) (hc : s.param p 0 = num ch.val) : exec .readCounters s =
    .next (match boolOfCode (s.param p 1).toNat with
      | none => s.withRefusal p .badParam
      | some clear => (if clear then s.clearCounters ch else s).withDone p .ok (s.counterPages ch)) := by
  refine (h.run_channel.1 ch hc).trans (congrArg _ ?_)
  rw [show (s.mail p).params.get 1 = s.param p 1 from rfl]
  cases boolOfCode (s.param p 1).toNat with
  | none => exact s.answered_latch p _ _
  | some clear =>
    show State.answered p (if clear = true then (s.latch p).clearCounters ch else s.latch p,
      .done .ok ((s.latch p).counterPages ch)) = _
    rw [s.latch_counterPages, s.latch_clearCounters]
    cases clear with
    | false => exact s.answered_latch p _ _
    | true => exact State.answered_placed (s := s) (t := s.clearCounters ch) p ⟨rfl, rfl, rfl⟩ _ _

theorem State.Takes.readStatus (h : s.Takes p 67) : exec .readStatus s = .next (s.withOk p (statusPage s)) := by
  refine (h.run_any bodyReadStatus).trans (congrArg _ ?_)
  rw [bodyReadStatus, show statusPage (s.latch p) = statusPage s by cases p <;> rfl]
  exact s.answered_latch p _ _

/-- R170: a clear reaches the link counters, the scrub counters and the classifier counters of one channel alone. -/
theorem State.clearCounters_channels (s : State) (ch c : Chan) :
    (s.clearCounters ch).link c = (if c = ch then { s.link ch with counters := ⟨0, 0, 0, 0, 0, 0, 0, 0, 0⟩ } else s.link c) ∧
    (s.clearCounters ch).scrub c = (if c = ch then { s.scrub ch with counters := ⟨0, 0, 0⟩ } else s.scrub c) ∧
    (s.clearCounters ch).classifier.get c = (if c = ch then ⟨0, 0⟩ else s.classifier.get c) :=
  ⟨Table.get_modify _ _ _ _, Table.get_modify _ _ _ _, Table.get_modify _ _ _ _⟩

end

/-! ### The words of READ_COUNTERS -/

theorem page_get (ws : List Word) (k : Fin 6) : (page ws).get k = ws.getD k.val 0 := by
  simp [page, Table.get]

/-- R165: a result page holds its words, and 0 in the others. -/
theorem pages_get (p0 p1 p2 : List Word) (k : Fin 6) : ((pages p0 p1 p2).get 0).get k = p0.getD k.val 0 ∧
    ((pages p0 p1 p2).get 1).get k = p1.getD k.val 0 ∧ ((pages p0 p1 p2).get 2).get k = p2.getD k.val 0 :=
  ⟨page_get p0 k, page_get p1 k, page_get p2 k⟩

/-- R188: two counters in one word. -/
theorem pair_fields (a b : Nat) : field (pair a b) 15 0 = a % 2 ^ 16 ∧ field (pair a b) 31 16 = b % 2 ^ 16 := by
  have laid : Laid (pair a b) _ := ⟨rfl, by simp⟩
  exact ⟨laid.field_mod 0 rfl (by decide), laid.field_mod 1 rfl (by decide)⟩

theorem PatrolState.code_lt (a : PatrolState) : a.code < 4 := by cases a <;> decide

theorem AbortReason.code_lt (a : AbortReason) : a.code < 4 := by cases a <;> decide

theorem PatrolMode.code_eq (a : PatrolMode) : a.code = (decide (a = .singlePass)).toNat := by cases a <;> rfl

theorem ArbiterMode.code_eq (a : ArbiterMode) : a.code = (decide (a = .fixed)).toNat := by cases a <;> rfl

/-- R145, R188: word 0 of the scrub state. -/
theorem scrubPage_word0 (c : Scrub) :
    let w := (scrubPage c).getD 0 0
    field w 1 0 = c.patrol.code ∧ w.getLsbD 2 = decide (c.mode = .singlePass) ∧ w.getLsbD 3 = c.holdFlag ∧
    field w 6 4 = (List.finRange 4).countP (fun tag => (c.tags.get tag).isSome) ∧ field w 9 8 = c.timeoutRun % 4 ∧
    field w 31 16 = c.passes.toNat ∧ w.getLsbD 7 = false ∧ field w 15 10 = 0 := by
  intro w
  have laid : Laid w _ := ⟨rfl, by simp [flagBit]⟩
  have busy : c.busy < 8 := lt_of_le_of_lt (c.tags.count_le _) (by decide)
  rw [← c.tags.count_eq]
  exact ⟨laid.field 0 rfl (by decide) c.patrol.code_lt, laid.bit 1 (by simp [flagBit, c.mode.code_eq]) (by decide),
    laid.bit 2 rfl (by decide), laid.field 3 rfl (by decide) busy, laid.field_mod 4 rfl (by decide),
    laid.field 5 rfl (by decide) c.passes.isLt, laid.unnamed_bit (by simp [flagBit, Apart]), laid.unnamed (by simp [flagBit, Apart])⟩

/-- R188: words 1 and 2 of the scrub state hold the cursor. -/
theorem scrubPage_cursor (c : Scrub) :
    let u := fun n => (scrubPage c).getD n 0
    field (u 1) 7 4 = c.cursor.rank.val ∧ field (u 1) 15 8 = c.cursor.bank.val ∧ field (u 1) 31 28 = 0 ∧
    (u 2).toNat = c.cursor.row.val := by
  intro u
  have laid : Laid (u 1) _ := ⟨rfl, by simp⟩
  refine ⟨laid.field 1 rfl (by decide) (by have := c.cursor.rank.isLt; omega),
    laid.field 2 rfl (by decide) (by have := c.cursor.bank.isLt; omega), laid.unnamed (by simp [Apart]), ?_⟩
  have row := c.cursor.row.isLt
  simp [u, scrubPage, wordB, pack, placed]
  omega

/-! ### The words of READ_STATUS -/

/-- R171, R188: a word of 4 bits per channel. -/
theorem perChannel_field (f : Chan → Nat) (ch : Chan) : field (perChannel f) (4 * ch.val + 3) (4 * ch.val) = f ch % 16 := by
  have ascending : ((List.finRange 8).map fun ch => (4 * ch.val + 3, 4 * ch.val, f ch)).Pairwise (fun f g => f.1 < g.2.1) := by
    refine List.pairwise_map.mpr ((List.pairwise_lt_finRange 8).imp fun {a b} hab => ?_)
    have := Fin.lt_def.mp hab
    show 4 * a.val + 3 < 4 * b.val
    omega
  have laid : Laid (perChannel f) _ := ⟨rfl, ascending⟩
  have width : 4 * ch.val + 3 + 1 - 4 * ch.val = 4 := by omega
  rw [laid.field_mod ch.val (v := f ch) (by simp) (by omega), width]
  rfl

/-- R158, R171, R188: word 3 of READ_STATUS. -/
theorem statusPage_word3 (s : State) :
    let w := (statusPage s).getD 3 0
    w.getLsbD 0 = s.intake.slot.isSome ∧ w.getLsbD 1 = decide (s.intake.mode = .fixed) ∧ field w 3 2 = 0 ∧
    field w 7 4 = s.verify.jobs.length % 16 ∧ w.getLsbD 8 = !s.verify.jobs.isEmpty ∧ field w 15 9 = 0 ∧
    (∀ j, s.verify.jobs.head? = some j → field w 22 16 = j.cet.val) ∧ field w 31 23 = 0 := by
  intro w
  have laid : Laid w _ := ⟨rfl, by simp [flagBit]⟩
  have head : s.verify.jobs.head?.isSome = !s.verify.jobs.isEmpty := by cases s.verify.jobs <;> rfl
  refine ⟨laid.bit 0 rfl (by decide), laid.bit 1 (by simp [flagBit, s.intake.mode.code_eq]) (by decide),
    laid.unnamed (by simp [flagBit, Apart]), laid.field_mod 2 rfl (by decide), laid.bit 3 (by rw [← head]; rfl) (by decide),
    laid.unnamed (by simp [flagBit, Apart]), fun j hj => ?_, laid.unnamed (by simp [flagBit, Apart])⟩
  exact laid.field 4 (by simp [hj]) (by decide) j.cet.isLt

/-- R158, R188: word 4 of READ_STATUS holds the last abort. -/
theorem statusPage_word4 (s : State) :
    let w := (statusPage s).getD 4 0
    w.getLsbD 0 = s.verify.lastAbort.isSome ∧
    (∀ reason i, s.verify.lastAbort = some (reason, i) → field w 2 1 = reason.code ∧ field w 14 8 = i.val) ∧
    field w 7 3 = 0 ∧ field w 31 15 = 0 := by
  intro w
  cases ha : s.verify.lastAbort with
  | none =>
    have laid : Laid w [] := ⟨by simp only [w, statusPage, ha]; rfl, .nil⟩
    exact ⟨laid.unnamed_bit (by simp), nofun, laid.unnamed (by simp), laid.unnamed (by simp)⟩
  | some abort =>
    obtain ⟨reason, i⟩ := abort
    have laid : Laid w [flagBit 0 true, (2, 1, reason.code), (14, 8, i.val)] :=
      ⟨by simp only [w, statusPage, ha]; rfl, by simp [flagBit]⟩
    refine ⟨laid.bit 0 rfl (by decide), fun r k hk => ?_, laid.unnamed (by simp [flagBit, Apart]),
      laid.unnamed (by simp [flagBit, Apart])⟩
    cases hk
    exact ⟨laid.field 1 rfl (by decide) reason.code_lt, laid.field 2 rfl (by decide) i.isLt⟩

/-- Settles O15: the two commands by the clear code, the words by the places of their fields. -/
theorem countersAndStatus : Obligations.CountersAndStatus := by
  unfold Obligations.CountersAndStatus
  refine ⟨fun p s => ⟨fun h ch hc => ⟨fun h0 => ?_, fun h1 => ⟨s.clearCounters ch, ?_, rfl, ?_⟩, fun h2 => ?_⟩,
    fun h hb => h.run_channel.2 hb, fun h => h.readStatus⟩, pages_get, ⟨rfl, rfl⟩, fun l k c t r => ?_, fun s => ?_⟩
  · rw [h.readCounters hc, h0]; rfl
  · rw [h.readCounters hc, h1]; rfl
  · obtain ⟨link, scrub, classifier⟩ := s.clearCounters_channels ch ch
    simp only [if_true] at link scrub classifier
    refine ⟨link, scrub, classifier, fun c other => ?_⟩
    obtain ⟨link, scrub, classifier⟩ := s.clearCounters_channels ch c
    simp only [other, if_false] at link scrub classifier
    exact ⟨link, scrub, classifier⟩
  · rw [h.readCounters hc, boolOfCode_none h2]
  · obtain ⟨patrol, mode, hold, busy, run, passes, unnamed7, unnamed15⟩ := scrubPage_word0 c
    obtain ⟨rank, bank, unnamed31, row⟩ := scrubPage_cursor c
    exact ⟨pair_fields _ _, pair_fields _ _, pair_fields _ _, pair_fields _ _, pair_fields _ _, rfl,
      pair_fields _ _, pair_fields _ _, pair_fields _ _, pair_fields _ _, pair_fields _ _, rfl,
      patrol, mode, hold, busy, run, passes, unnamed7, unnamed15, rank, bank, unnamed31, row, rfl, rfl, rfl⟩
  · obtain ⟨slot, mode, unnamed3, jobs, head, unnamed15, index, unnamed31⟩ := statusPage_word3 s
    obtain ⟨present, abort, unnamed7, unnamedHigh⟩ := statusPage_word4 s
    exact ⟨fun ch => ⟨perChannel_field s.queued ch, perChannel_field (fun ch => (s.link ch).outstanding) ch,
        perChannel_field (fun ch => (s.link ch).awaiting) ch⟩,
      slot, mode, unnamed3, jobs, head, unnamed15, index, unnamed31, present, abort, unnamed7, unnamedHigh, rfl⟩

end Sys2Proof.Machine

/-! SET_POLICY: the test of each field, the lowest refused field, and the settings after a command that is accepted (R16, R17, R68, R88,
R107, R149, R169, R188). -/

namespace Sys2Proof.Machine

/-! ### The tests of the fields -/

theorem badUnless_decide (P : Prop) [Decidable P] : badUnless (decide P) = if P then none else some .badParam := by
  simp [badUnless]

theorem boolOfCode_isSome (n : Nat) : (boolOfCode n).isSome = decide (n ≤ 1) := by
  match n with
  | 0 | 1 => rfl
  | _ + 2 => simp [boolOfCode]

theorem proposeModeOfCode_isSome (n : Nat) : (proposeModeOfCode n).isSome = decide (n ≤ 2) := by
  match n with
  | 0 | 1 | 2 => rfl
  | _ + 3 => simp [proposeModeOfCode]

theorem arbiterModeOfCode_isSome (n : Nat) : (arbiterModeOfCode n).isSome = decide (n ≤ 1) := by
  match n with
  | 0 | 1 => rfl
  | _ + 2 => simp [arbiterModeOfCode]

/-- R169, R188: the values of a SET_POLICY as bits of its raw words. -/
theorem policyWords_eq (ps : Table Word 6) : policyWords ps = {
    mask          := ps.get 0
    granularity   := ((ps.get 1).extractLsb' 0 2).toNat
    threshold     := ((ps.get 1).extractLsb' 8 16).toNat
    leakInterval  := ((ps.get 2).extractLsb' 0 32).toNat
    autoVerify    := ((ps.get 1).extractLsb' 2 2).toNat
    proposeMode   := ((ps.get 1).extractLsb' 4 2).toNat
    reads         := ((ps.get 3).extractLsb' 0 8).toNat
    persist       := ((ps.get 3).extractLsb' 8 8).toNat
    arbiter       := ((ps.get 3).extractLsb' 16 2).toNat
    batch         := ((ps.get 3).extractLsb' 24 4).toNat
    systemWindow  := ((ps.get 4).extractLsb' 0 32).toNat
    serviceWindow := ((ps.get 5).extractLsb' 0 20).toNat
    fatalOnEsc    := ((ps.get 5).extractLsb' 20 2).toNat
    fatalOnOvf    := ((ps.get 5).extractLsb' 22 2).toNat
    proposeOnUe   := ((ps.get 5).extractLsb' 24 2).toNat } := by
  simp only [policyWords, field_eq_extract, BitVec.extractLsb'_eq_self]

section
variable (w : PolicyWords) (s : State)

/-- R16: a granularity that names none. -/
theorem PolicyWords.refuses_granularity_unnamed (h : 3 = w.granularity) : w.refuses s 0 = some .badParam := by
  simp only [PolicyWords.refuses, ← h, granularityOfCode]

/-- R16: a granularity other than the one in force needs an empty CET. -/
theorem PolicyWords.refuses_granularity {g : Granularity} (h : granularityOfCode w.granularity = some g) :
    w.refuses s 0 = if g = s.cet.policy.granularity ∨ s.cet.occupancy = 0 then none else some .stateConflict := by
  simp only [PolicyWords.refuses, h, ← not_or, ne_eq, ite_not]

theorem PolicyWords.refuses_threshold :
    w.refuses s 1 = if 1 ≤ w.threshold ∧ w.threshold ≤ 255 then none else some .badParam := badUnless_decide _

theorem PolicyWords.refuses_leakInterval : w.refuses s 2 = if w.leakInterval ≤ 65535 then none else some .badParam :=
  badUnless_decide _

theorem PolicyWords.refuses_autoVerify : w.refuses s 3 = if w.autoVerify ≤ 1 then none else some .badParam :=
  (congrArg badUnless (boolOfCode_isSome _)).trans (badUnless_decide _)

theorem PolicyWords.refuses_proposeMode : w.refuses s 4 = if w.proposeMode ≤ 2 then none else some .badParam :=
  (congrArg badUnless (proposeModeOfCode_isSome _)).trans (badUnless_decide _)

/-- R149: the reads total, and the persistence in force where the command carries none. -/
theorem PolicyWords.refuses_reads : w.refuses s 5 =
    if 1 ≤ w.reads ∧ w.reads ≤ 15 ∧ (w.carries 6 = true ∨ s.verify.persist ≤ w.reads) then none else some .badParam := by
  rw [← badUnless_decide]
  simp only [PolicyWords.refuses, Bool.decide_and, Bool.decide_or, Bool.decide_eq_true, Bool.and_assoc]

/-- R149: the persistence within the reads total that is then in force. -/
theorem PolicyWords.refuses_persist :
    w.refuses s 6 = if 1 ≤ w.persist ∧ w.persist ≤ w.readsAfter s then none else some .badParam := badUnless_decide _

theorem PolicyWords.refuses_arbiter : w.refuses s 7 = if w.arbiter ≤ 1 then none else some .badParam :=
  (congrArg badUnless (arbiterModeOfCode_isSome _)).trans (badUnless_decide _)

theorem PolicyWords.refuses_batch : w.refuses s 8 = if 1 ≤ w.batch ∧ w.batch ≤ 6 then none else some .badParam :=
  badUnless_decide _

theorem PolicyWords.refuses_systemWindow : w.refuses s 9 = if w.systemWindow ≤ 65535 then none else some .badParam :=
  badUnless_decide _

theorem PolicyWords.refuses_serviceWindow : w.refuses s 10 = if w.serviceWindow ≤ 65535 then none else some .badParam :=
  badUnless_decide _

theorem PolicyWords.refuses_fatalOnEsc : w.refuses s 11 = if w.fatalOnEsc ≤ 1 then none else some .badParam :=
  (congrArg badUnless (boolOfCode_isSome _)).trans (badUnless_decide _)

theorem PolicyWords.refuses_fatalOnOvf : w.refuses s 12 = if w.fatalOnOvf ≤ 1 then none else some .badParam :=
  (congrArg badUnless (boolOfCode_isSome _)).trans (badUnless_decide _)

theorem PolicyWords.refuses_proposeOnUe : w.refuses s 13 = if w.proposeOnUe ≤ 1 then none else some .badParam :=
  (congrArg badUnless (boolOfCode_isSome _)).trans (badUnless_decide _)

end

/-! ### The command by its tests -/

section
variable {w : PolicyWords} {s : State}

theorem PolicyWords.refusedAt_eq_none {n : Nat} : w.refusedAt s n = none ↔ (w.carries n = true → w.refuses s n = none) := by
  unfold PolicyWords.refusedAt
  split <;> simp [*]

/-- R169: the lowest refused position. -/
theorem PolicyWords.firstRefused_eq_some {n : Nat} {code : ResultCode} (hn : n < 14) (hc : w.carries n = true)
    (hr : w.refuses s n = some code) (hl : ∀ m, m < n → w.carries m = true → w.refuses s m = none) :
    w.firstRefused s = some (n, code) := by
  have split : List.range 14 = List.range n ++ n :: (List.range 14).drop (n + 1) := by
    have parts := List.take_append_drop n (List.range 14)
    rw [List.drop_eq_getElem_cons (by simpa using hn), List.take_range, Nat.min_eq_left hn.le, List.getElem_range] at parts
    exact parts.symm
  refine List.findSome?_eq_some_iff.mpr ⟨_, n, _, split, ?_, fun m hm => ?_⟩
  · simp [PolicyWords.refusedAt, hc, hr]
  · exact Option.map_eq_none_iff.mpr (PolicyWords.refusedAt_eq_none.mpr (hl m (List.mem_range.mp hm)))

theorem PolicyWords.firstRefused_eq_none (h : ∀ n, n < 14 → w.carries n = true → w.refuses s n = none) :
    w.firstRefused s = none :=
  List.findSome?_eq_none_iff.mpr fun n hn =>
    Option.map_eq_none_iff.mpr (PolicyWords.refusedAt_eq_none.mpr (h n (List.mem_range.mp hn)))

end

theorem State.latch_firstRefused (s : State) (p : Port) (w : PolicyWords) : w.firstRefused (s.latch p) = w.firstRefused s := by
  cases p <;> rfl

theorem PolicyWords.apply_latch (w : PolicyWords) (s : State) (p : Port) :
    w.apply (s.latch p) = (w.apply s).asTaken (s.latch p) := by
  unfold PolicyWords.apply
  cases p <;> split <;> rfl

theorem PolicyWords.apply_sameEngine (w : PolicyWords) (s : State) : SameEngine s (w.apply s) := by
  unfold PolicyWords.apply
  dsimp only
  split <;> exact ⟨rfl, rfl, rfl⟩

/-- R169: SET_POLICY with its refusals in order. -/
theorem State.Takes.setPolicy {s : State} {p : Port} (h : s.Takes p 5) : exec .setPolicy s = .next (
    if 2 ^ 14 ≤ (s.param p 0).toNat then s.withDone p .badParam (pages [0, 31] [] [])
    else match (policyWords (s.mail p).params).firstRefused s with
      | some (n, code) => s.withDone p code (pages [0, num n] [] [])
      | none => ((policyWords (s.mail p).params).apply s).withOk p [s.param p 0, 31]) := by
  refine (h.run_any bodySetPolicy).trans (congrArg _ ?_)
  have unknown : (policyWords (s.mail p).params).namesUnknown = decide (2 ^ 14 ≤ (s.param p 0).toNat) := rfl
  simp only [bodySetPolicy, unknown, s.latch_firstRefused, decide_eq_true_eq]
  split
  · exact s.answered_latch p _ _
  · cases (policyWords (s.mail p).params).firstRefused s with
    | some refused => exact s.answered_latch p _ _
    | none =>
      dsimp only
      rw [PolicyWords.apply_latch]
      exact State.answered_placed p (PolicyWords.apply_sameEngine _ s) _ _

/-! ### The settings after an accepted command -/

/-- R169, R17: what an accepted SET_POLICY writes. -/
theorem PolicyWords.apply_eq (w : PolicyWords) (s : State) : w.apply s = { s with
    cet := { s.cet with
      policy := w.cetPolicy s.cet.policy
      leakTimer := if w.carries 2 = true then Timer.ofSetting (w.leakInterval * 1000) else s.cet.leakTimer }
    uel := { s.uel with policy := w.uelPolicy s.uel.policy }
    verify := { s.verify with
      reads := w.choose 5 (some w.reads) s.verify.reads
      persist := w.choose 6 (some w.persist) s.verify.persist }
    intake := { s.intake with mode := w.choose 7 (arbiterModeOfCode w.arbiter) s.intake.mode }
    batch := w.choose 8 (some w.batch) s.batch } := by
  have interval (h : w.carries 2 = true) : (w.cetPolicy s.cet.policy).leakInterval = w.leakInterval := if_pos h
  unfold PolicyWords.apply
  dsimp only
  split
  · next h =>
    simp only [State.startLeakTimer, State.setCet, State.setUel, State.setVerify, State.setIntake, State.setBatch, interval h]
    rfl
  · rfl

theorem PolicyWords.choose_eq {α : Type} {w : PolicyWords} {n : Nat} {new : Option α} {value : α}
    (h : w.carries n = true → new = some value) (old : α) : w.choose n new old = if w.carries n = true then value else old := by
  unfold PolicyWords.choose
  split
  · rw [h ‹_›]; rfl
  · rfl

/-- R188: a truth value whose field holds 0 or 1 is the lowest bit of the field. -/
theorem boolOfCode_field {w : Word} {hi lo : Nat} (hw : lo ≤ hi) (h : field w hi lo ≤ 1) :
    boolOfCode (field w hi lo) = some (w.getLsbD lo) := by
  rw [← field_low_bit w hw]
  generalize field w hi lo = n at h
  match n, h with
  | 0, _ | 1, _ => rfl

/-- R88: the arbiter mode is coded as a truth value. -/
theorem arbiterModeOfCode_eq (n : Nat) :
    arbiterModeOfCode n = (boolOfCode n).map (fun fixed => if fixed = true then .fixed else .rotating) := by
  match n with
  | 0 | 1 | _ + 2 => rfl

theorem granularityOfCode_eq {n : Nat} : n ≤ 2 →
    granularityOfCode n = some (match n with | 0 => .cell | 1 => .row | _ => .bank) := fun h => by
  match n, h with
  | 0, _ | 1, _ | 2, _ => rfl

theorem proposeModeOfCode_eq {n : Nat} : n ≤ 2 →
    proposeModeOfCode n = some (match n with | 0 => .off | 1 => .onThreshold | _ => .onPersistent) := fun h => by
  match n, h with
  | 0, _ | 1, _ | 2, _ => rfl

/-- R17: the leak timer that a leak interval starts. -/
theorem Timer.ofSetting_leak (v : Word) :
    Timer.ofSetting (v.toNat * 1000) = if v = 0 then none else some (v.toNat * 1000) := by
  have zero : v.toNat * 1000 = 0 ↔ v = 0 := by simp [← BitVec.toNat_inj]
  simp only [Timer.ofSetting, zero]

section
variable {w : PolicyWords} {s : State} (accepted : w.firstRefused s = none)
include accepted

/-- R169: a truth value that an accepted SET_POLICY carries. -/
theorem PolicyWords.bool_accepted {n hi lo : Nat} {x : Word} (hn : n < 14) (hw : lo ≤ hi)
    (hr : w.refuses s n = badUnless (boolOfCode (field x hi lo)).isSome) (hc : w.carries n = true) :
    boolOfCode (field x hi lo) = some (x.getLsbD lo) :=
  boolOfCode_field hw (PolicyWords.test_of_accepted accepted hn (hr.trans (congrArg badUnless (boolOfCode_isSome _))) hc)

theorem PolicyWords.granularity_accepted (fits : w.granularity < 4) (hc : w.carries 0 = true) : w.granularity ≤ 2 := by
  have passed := PolicyWords.refuses_of_accepted accepted (by decide) hc
  have named : 3 ≠ w.granularity := fun h => nomatch (w.refuses_granularity_unnamed s h).symm.trans passed
  omega

theorem PolicyWords.proposeMode_accepted (hc : w.carries 4 = true) : w.proposeMode ≤ 2 :=
  PolicyWords.test_of_accepted accepted (n := 4) (by decide) (congrArg badUnless (proposeModeOfCode_isSome _)) hc

end

/-- Settles O17: the test of each field from its rule, the refusals by the first refused position, and each setting of an accepted
command by the value that its field names. -/
theorem setPolicyAllOrNothing : Obligations.SetPolicyAllOrNothing := by
  unfold Obligations.SetPolicyAllOrNothing
  refine ⟨fun ps s => ?_, fun p s h => ?_⟩
  · rw [policyWords_eq]
    intro w bits reads
    exact ⟨w.refuses_granularity_unnamed s, fun g => w.refuses_granularity s, w.refuses_threshold s, w.refuses_leakInterval s,
      w.refuses_autoVerify s, w.refuses_proposeMode s, w.refuses_reads s, w.refuses_persist s, w.refuses_arbiter s,
      w.refuses_batch s, w.refuses_systemWindow s, w.refuses_serviceWindow s, w.refuses_fatalOnEsc s, w.refuses_fatalOnOvf s,
      w.refuses_proposeOnUe s⟩
  · intro mask w
    have run := h.setPolicy
    refine ⟨fun unknown => ?_, fun known n code hn hc hr hl => ?_, fun known passed => ?_⟩
    · rw [run, if_pos unknown]
    · rw [run, if_neg (not_le.mpr known), PolicyWords.firstRefused_eq_some (w := w) hn hc hr hl]
    · have accepted : w.firstRefused s = none := PolicyWords.firstRefused_eq_none passed
      rw [if_neg (not_le.mpr known), accepted] at run
      refine ⟨w.apply s, run, ?_⟩
      rw [w.apply_eq s]
      have coded {n hi lo : Nat} {x : Word} (hn : n < 14) (hw : lo ≤ hi)
          (hr : w.refuses s n = badUnless (boolOfCode (field x hi lo)).isSome) (old : Bool) :
          w.choose n (boolOfCode (field x hi lo)) old = if mask.getLsbD n = true then x.getLsbD lo else old :=
        PolicyWords.choose_eq (PolicyWords.bool_accepted accepted hn hw hr) old
      have number {n hi lo : Nat} {x : Word} (old : Nat) : w.choose n (some (field x hi lo)) old =
          if mask.getLsbD n = true then (x.extractLsb' lo (hi + 1 - lo)).toNat else old :=
        PolicyWords.choose_eq (fun _ => congrArg some (field_eq_extract x hi lo)) old
      refine ⟨rfl, number _, rfl, ?_, number _, number _, ?_, coded (by decide) (by decide) rfl _, ?_, ?_,
        coded (by decide) (by decide) rfl _, coded (by decide) (by decide) rfl _, coded (by decide) (by decide) rfl _, number _,
        rfl, number _⟩
      · rw [← Timer.ofSetting_leak]; rfl
      · refine PolicyWords.choose_eq (fun hc => ?_) _
        have bits : w.granularity = ((s.param p 1).extractLsb' 0 2).toNat := field_eq_extract _ 1 0
        have named : w.granularity ≤ 2 :=
          PolicyWords.granularity_accepted accepted (bits ▸ ((s.param p 1).extractLsb' 0 2).isLt) hc
        rw [bits] at named ⊢
        exact granularityOfCode_eq named
      · refine PolicyWords.choose_eq (fun hc => ?_) _
        have bits : w.proposeMode = ((s.param p 1).extractLsb' 4 2).toNat := field_eq_extract _ 5 4
        have named : w.proposeMode ≤ 2 := PolicyWords.proposeMode_accepted accepted hc
        rw [bits] at named ⊢
        exact proposeModeOfCode_eq named
      · refine PolicyWords.choose_eq (fun hc => ?_) _
        have fixed : boolOfCode w.arbiter = some ((s.param p 3).getLsbD 16) :=
          boolOfCode_field (by decide) (PolicyWords.test_of_accepted accepted (n := 7) (by decide)
            (congrArg badUnless (arbiterModeOfCode_isSome _)) hc)
        rw [arbiterModeOfCode_eq, fixed, Option.map_some]

end Sys2Proof.Machine

/-! The Soft reset: the links that restart find no request, no job and no record, so that a departure tells nobody (R126, R146, R159, R175,
R176). -/

namespace Sys2Proof.Machine

/-! ### An entry to SYNCING with nothing to abandon -/

/-- R159, R176: no job waits and no tag is in use. -/
structure State.Quiet (s : State) : Prop where
  jobs : s.verify.jobs = []
  tags : ∀ ch tag, (s.scrub ch).tags.get tag = none

/-- R178: LINK_CHANGE is set. -/
def EventUnit.linkChanged (e : EventUnit) : EventUnit := { e with flags := e.flags ||| EventFlag.linkChange.mask }

theorem EventUnit.linkChanged_twice (e : EventUnit) : e.linkChanged.linkChanged = e.linkChanged := by
  simp only [EventUnit.linkChanged, BitVec.or_assoc, BitVec.or_self]

/-- R141: without a request nothing is told to the verify queue. -/
theorem State.tellAbandoned_idle (s : State) (ch : Chan) (r : Option ReadResult) {tags : List (Tag × Option Request)}
    (h : ∀ x ∈ tags, x.2 = none) : s.tellAbandoned ch r tags = s := by
  unfold State.tellAbandoned
  induction tags with
  | nil => rfl
  | cons x rest ih =>
    rw [List.foldl_cons, h x List.mem_cons_self]
    exact ih fun y hy => h y (List.mem_cons_of_mem x hy)

section
variable {s : State} {ch : Chan}

theorem Scrub.tagList_idle {c : Scrub} (h : ∀ tag, c.tags.get tag = none) : ∀ x ∈ c.tagList, x.2 = none := by
  simp only [Scrub.tagList, List.mem_map]
  rintro x ⟨tag, -, rfl⟩
  exact h tag

/-- R113: a departure that finds no request and no job. -/
theorem State.Quiet.departActive (h : s.Quiet) (st : LinkState) : s.departActive ch st = s.left ch st := by
  have told : ((((s.setLinkState ch st).modLink ch Link.dropCredits).modTx ch Transmitter.withdraw).abandonRequests ch none) =
      s.left ch st := State.tellAbandoned_idle _ _ _ (Scrub.tagList_idle (h.tags ch))
  have jobs : (s.left ch st).verify.jobs = [] := h.jobs
  rw [State.departActive, told]
  exact State.abortRunningOn_unmoved _ _ (by simp [jobs])

end

/-! ### What a restart of links leaves -/

/-- Beside the links, the transmitters, the scrub contexts and the event unit nothing differs. -/
def LaneFrame (s t : State) (events : EventUnit) : Prop :=
  t = { s with links := t.links, txs := t.txs, scrubs := t.scrubs, events := events }

section
variable {s t u : State} {a b : EventUnit} {ch : Chan}

theorem LaneFrame.refl (s : State) : LaneFrame s s s.events := rfl

theorem LaneFrame.trans (h : LaneFrame s t a) (k : LaneFrame t u b) : LaneFrame s u b :=
  Eq.trans k (congrArg (fun x => { x with links := u.links, txs := u.txs, scrubs := u.scrubs, events := b }) h)

theorem LaneFrame.events (h : LaneFrame s t a) : t.events = a := (congrArg State.events h :)

theorem LaneFrame.modLink (h : LaneFrame s t a) (f : Link → Link) : LaneFrame s (t.modLink ch f) a :=
  h.trans (h.events ▸ rfl)

theorem LaneFrame.modTx (h : LaneFrame s t a) (f : Transmitter → Transmitter) : LaneFrame s (t.modTx ch f) a :=
  h.trans (h.events ▸ rfl)

theorem LaneFrame.modScrub (h : LaneFrame s t a) (f : Scrub → Scrub) : LaneFrame s (t.modScrub ch f) a :=
  h.trans (h.events ▸ rfl)

theorem State.left_frame (s : State) (ch : Chan) (st : LinkState) : LaneFrame s (s.left ch st) s.events.linkChanged := by
  have changed : LaneFrame s (s.setLinkState ch st) s.events.linkChanged := rfl
  exact ((changed.modLink _).modTx _).modScrub _

/-- R110, R126: a restart sets LINK_CHANGE. -/
theorem State.Quiet.enterSyncing_frame (h : s.Quiet) : LaneFrame s (s.enterSyncing ch) s.events.linkChanged := by
  by_cases active : (s.link ch).state = .active
  · rw [State.enterSyncing_active active, h.departActive]
    exact ((s.left_frame ch .syncing).modLink _).modTx _
  · rw [State.enterSyncing_inactive active (by simp [h.jobs])]
    rfl

/-- R126: a DOWN link is passed over. -/
theorem State.Quiet.resyncAtReset_frame (h : s.Quiet) : LaneFrame s (s.resyncAtReset ch)
    (if (s.link ch).state = .down then s.events else s.events.linkChanged) := by
  unfold State.resyncAtReset
  split
  · exact .refl s
  · exact h.enterSyncing_frame

theorem Lane.resynced_link (x : Lane) : x.resynced.link = if x.link.state = .down then x.link else x.link.syncing := by
  unfold Lane.resynced Lane.entered
  split
  · rfl
  · split <;> rfl

theorem Lane.resynced_tags {x : Lane} (h : ∀ tag, x.scrub.tags.get tag = none) (tag : Tag) :
    x.resynced.scrub.tags.get tag = none := by
  unfold Lane.resynced Lane.entered
  split
  · exact h tag
  · split
    · simp [Scrub.abandon_eq]
    · exact h tag

theorem State.resyncAtReset_down (s : State) (ch c : Chan) :
    ((s.resyncAtReset ch).link c).state = .down ↔ (s.link c).state = .down := by
  have link := congrArg Lane.link (s.lane_resyncAtReset ch c)
  by_cases hc : c = ch
  · subst hc
    rw [if_pos rfl, Lane.resynced_link] at link
    rw [show (s.resyncAtReset c).link c = _ from link]
    split
    · exact Iff.rfl
    · next up => exact iff_of_false nofun up
  · rw [if_neg hc] at link
    rw [show (s.resyncAtReset ch).link c = s.link c from link]

theorem State.Quiet.resyncAtReset (h : s.Quiet) (ch : Chan) : (s.resyncAtReset ch).Quiet where
  jobs := (congrArg (fun x => x.verify.jobs) h.resyncAtReset_frame).trans h.jobs
  tags c tag := by
    have scrub := congrArg Lane.scrub (s.lane_resyncAtReset ch c)
    rw [show (s.resyncAtReset ch).scrub c = _ from scrub]
    split
    · exact Lane.resynced_tags (h.tags ch) tag
    · exact h.tags c tag

/-- R126: the restart of several links sets LINK_CHANGE unless all of them are DOWN. -/
theorem State.Quiet.foldl_resyncAtReset_frame (h : s.Quiet) (chs : List Chan) : LaneFrame s (chs.foldl State.resyncAtReset s)
    (if ∀ ch ∈ chs, (s.link ch).state = .down then s.events else s.events.linkChanged) := by
  induction chs generalizing s with
  | nil => simpa using LaneFrame.refl s
  | cons ch rest ih =>
    have first : LaneFrame s (s.resyncAtReset ch) _ := h.resyncAtReset_frame
    have more := first.trans (ih (h.resyncAtReset ch))
    rw [first.events] at more
    simp only [State.resyncAtReset_down] at more
    rw [List.foldl_cons]
    convert more using 1
    simp only [List.forall_mem_cons]
    by_cases down : (s.link ch).state = .down <;> simp [down, EventUnit.linkChanged_twice]

end

/-! ### The Soft reset -/

/-- R176: the part at a Soft reset before its links restart. -/
def State.abandoned (s : State) : State := s.emptyIntake.emptyVerify.setScrubs (s.scrubs.map Scrub.softReset)

section
variable (s : State)

theorem State.abandoned_quiet : s.abandoned.Quiet where
  jobs := rfl
  tags ch tag := by
    have scrub : s.abandoned.scrub ch = (s.scrub ch).softReset := Table.get_map _ _ _
    rw [scrub]
    exact Table.get_map _ _ _

/-- R41, R64, R83, R101, R126, R146, R159: beside the links, the transmitters and the scrub contexts. -/
theorem State.softReset_frame : LaneFrame s.emptyIntake.emptyVerify s.softReset
    (if ∀ ch, (s.link ch).state = .down then s.events else s.events.linkChanged) := by
  have start : LaneFrame s.emptyIntake.emptyVerify s.abandoned s.events := rfl
  have restarted := start.trans (s.abandoned_quiet.foldl_resyncAtReset_frame (List.finRange 8))
  simp only [List.mem_finRange, forall_true_left] at restarted
  exact restarted

theorem State.lane_scrub (ch : Chan) : (s.lane ch).scrub = s.scrub ch := rfl

theorem State.lane_tx (ch : Chan) : (s.lane ch).tx = s.txs.get ch := rfl

theorem State.scrub_softReset (ch : Chan) : s.softReset.scrub ch = (s.scrub ch).softReset := by
  have once : (s.scrub ch).softReset.abandon = (s.scrub ch).softReset := congrArg Scrub.release (s.scrub ch).freeTags_freeTags
  rw [← State.lane_scrub, s.lane_softReset]
  unfold Lane.resynced Lane.entered
  split
  · rfl
  · split
    · exact once
    · rfl

theorem State.link_softReset (ch : Chan) :
    s.softReset.link ch = if (s.link ch).state = .down then s.link ch else (s.link ch).syncing :=
  (congrArg Lane.link (s.lane_softReset ch)).trans (Lane.resynced_link _)

theorem State.txs_softReset (ch : Chan) : s.softReset.txs.get ch =
    if (s.link ch).state = .down then s.txs.get ch
    else if (s.link ch).state = .active then (s.txs.get ch).withdraw.sendSync else (s.txs.get ch).sendSync := by
  have state : (s.lane ch).emptied.link.state = (s.link ch).state := rfl
  rw [← State.lane_tx, s.lane_softReset]
  unfold Lane.resynced Lane.entered
  rw [state]
  split
  · rfl
  · split <;> rfl

theorem State.softReset_sameEngine : SameEngine s s.softReset :=
  ⟨(congrArg State.engine s.softReset_frame :), (congrArg State.sysMail s.softReset_frame :),
    (congrArg State.svcMail s.softReset_frame :)⟩

/-- R175: ENGINE_RESET from the Service port. -/
theorem State.Takes.engineReset {s : State} (h : s.Takes .service 83) :
    exec .engineReset s = .next (s.softReset.withOk .service []) := by
  refine (h.run_service bodyEngineReset).trans (congrArg _ ?_)
  have placed : (s.latch .service).softReset = s.softReset.asTaken (s.latch .service) :=
    (congrArg State.softReset (s.latch_asTaken .service)).trans (s.softReset_asTaken _)
  rw [bodyEngineReset, placed]
  exact State.answered_placed .service s.softReset_sameEngine _ _

end

/-- R104: a withdrawal leaves no frame but the SYNC_REQUEST that is sent after it. -/
theorem Transmitter.withdraw_sendSync (x : Transmitter) : x.withdraw.sendSync.waiting = [.syncRequest] := by
  simp [Transmitter.sendSync, Transmitter.withdraw, List.filter_filter]

/-- Settles O53: the blocks beside the channels by the frame of the Soft reset, the channels one by one. -/
theorem softResetRestartsTraffic : Obligations.SoftResetRestartsTraffic := by
  unfold Obligations.SoftResetRestartsTraffic
  refine fun s h => ⟨s.softReset, h.engineReset, ?_⟩
  have frame := s.softReset_frame
  have events := frame.events
  have verify : s.softReset.verify = s.emptyIntake.emptyVerify.verify := (congrArg State.verify frame :)
  have cet : s.softReset.cet = s.emptyIntake.emptyVerify.cet := (congrArg State.cet frame :)
  have idle (ch : Chan) (tag : Tag) : (s.scrub ch).softReset.tags.get tag = none := Table.get_map _ _ _
  refine ⟨fun ch => ?_, (congrArg State.intake frame :), ?_, fun ch => ?_, ?_, fun i => ?_, fun ch => ?_, fun ch => ?_, fun ch down => ?_,
    fun ch up => ?_, fun up => ?_, fun down => ?_, ?_, ?_, (congrArg State.clock frame :), (congrArg State.retire frame :),
    (congrArg State.uel frame :), (congrArg State.classifier frame :), (congrArg State.batch frame :),
    (congrArg State.engine frame :), (congrArg State.sysMail frame :), (congrArg State.svcMail frame :),
    (congrArg State.portData frame :), (congrArg State.rst frame :)⟩
  · exact (congrArg (fun x => x.queues.get ch) frame).trans (Table.get_map _ _ _)
  · rw [verify]; rfl
  · rw [verify]; exact Table.get_map _ _ _
  · rw [cet]; rfl
  · rw [State.entry, cet]; exact Table.get_map _ _ _
  · rw [s.scrub_softReset]; rfl
  · rw [s.scrub_softReset]
    exact ⟨idle ch, rfl, rfl, rfl, rfl, rfl, rfl, rfl, rfl⟩
  · rw [s.link_softReset, s.txs_softReset, if_pos down, if_pos down]
    exact ⟨rfl, rfl⟩
  · rw [s.link_softReset, s.txs_softReset, if_neg up, if_neg up]
    refine ⟨rfl, by split <;> rfl, fun active => ?_, fun inactive => ?_⟩
    · rw [if_pos active, Transmitter.withdraw_sendSync]
    · rw [if_neg (by rcases inactive with h | h <;> simp [h])]; rfl
  · obtain ⟨ch, up⟩ := up
    rw [if_neg fun down => up (down ch)] at events
    rw [State.flagged, events]
    exact (s.flagged_setFlag .linkChange .linkChange).trans (by simp)
  · rw [events, if_pos down]
  · rw [events]; split <;> rfl
  · rw [events]
    split
    · exact BitVec.and_self
    · exact (EventUnit.Grows.or s.events _).2

end Sys2Proof.Machine

/-! Full reset and the commands while RST_N is asserted; the event flags, the line masks and the three output lines (R179 to R184). -/

namespace Sys2Proof.Machine

/-- Settles O3: every meaning but those of the two edges of RST_N does nothing while it is asserted, and the two rows with a test of
their own pass it. -/
theorem heldPartIgnoresCommands : Obligations.HeldPartIgnoresCommands := by
  unfold Obligations.HeldPartIgnoresCommands
  intro c s hr hw h1 h2
  unfold exec
  cases c with
  | fullReset => exact absurd rfl h1
  | fullResetEnd => exact absurd rfl h2
  | registerWriteIgnored => exact if_pos hw
  | unknownKindFrame => exact (if_neg (by simpa [Instr.wellFormed] using hw)).trans (State.whileRunning_held hr _)
  | _ => exact State.whileRunning_held hr _

/-! ### Full reset (R184) -/

/-- R184: every block at its Full reset values, and the commands that wait kept. -/
theorem exec_fullReset (s : State) : exec .fullReset s = .next (State.held.setPending s.pending) := rfl

section
variable (waiting : List Instr) (ch : Chan)

theorem State.held_link : (State.held.setPending waiting).link ch = Link.held :=
  congrArg Lane.link (State.lane_held waiting ch)

theorem State.held_scrub : (State.held.setPending waiting).scrub ch = Scrub.held :=
  congrArg Lane.scrub (State.lane_held waiting ch)

theorem State.held_mail (p : Port) : (State.held.setPending waiting).mail p = Mailbox.held := by cases p <;> rfl

end

theorem Mailbox.held_result (g : Fin 3) (k : Fin 6) : (Mailbox.held.result.get g).get k = 0 :=
  (congrArg (Table.get · k) (Table.get_fill (Table.fill 6 0) g)).trans (Table.get_fill 0 k)

/-- Settles O4: the tables, the channels and the mailboxes cell by cell, every other field as `State.held` writes it. -/
theorem fullResetValues : Obligations.FullResetValues := by
  unfold Obligations.FullResetValues
  refine fun s => ⟨_, exec_fullReset s, rfl, rfl, rfl, fun i => Table.get_fill _ i, rfl, rfl, rfl, rfl, rfl, rfl,
    fun i => Table.get_fill _ i, rfl, rfl, rfl, rfl, rfl, rfl, rfl, rfl, fun ch => Table.get_fill _ ch, rfl,
    fun ch => Table.get_fill _ ch, fun ch => ?_, fun ch => Table.get_fill _ ch, rfl, fun ch => ?_, rfl,
    fun ch => Table.get_fill _ ch, rfl, rfl, rfl, rfl, rfl, rfl, fun p => ?_, rfl, rfl, rfl, rfl⟩
  · rw [State.geometry, State.held_link]
    exact ⟨rfl, rfl, rfl, rfl, rfl, rfl, rfl, rfl, rfl⟩
  · rw [State.held_scrub]
    exact ⟨rfl, rfl, rfl, rfl, rfl, rfl, rfl, rfl, rfl, rfl, rfl, rfl, fun tag => Table.get_fill _ tag, rfl, rfl, rfl, rfl⟩
  · rw [State.held_mail]
    exact ⟨rfl, rfl, fun k => Table.get_fill _ k, fun k => Table.get_fill _ k, Mailbox.held_result, rfl, rfl, rfl⟩

/-! ### EVENT_CLEAR, the line masks and the output lines (R180 to R183) -/

/-- Two sets of flags meet where a position is in both. -/
theorem and_bne_zero_iff {w : Nat} (a b : BitVec w) :
    ((a &&& b) != 0) = true ↔ ∃ n, n < w ∧ a.getLsbD n = true ∧ b.getLsbD n = true := by
  rw [bne_iff_ne, ne_eq, BitVec.eq_of_getLsbD_eq_iff]
  simp

section
variable {s : State} (p : Port) (v : Word) (hr : s.rst = false)
include hr

theorem exec_eventClearWrite : exec (.eventClearWrite p v) s = .next (s.clearFlags v) :=
  State.whileRunning_running hr (State.clearFlags · v)

theorem exec_lineMaskWrite : exec (.lineMaskWrite p v) s = .next (s.setLineMask p v) :=
  State.whileRunning_running hr (State.setLineMask · p v)

end

/-- R182: a line follows the flags that are set and in its mask, and is released while RST_N is asserted. -/
theorem line_asserted_iff (rst : Bool) (flags mask : BitVec 17) : (!rst && (flags &&& mask) != 0) = true ↔
    rst = false ∧ ∃ n, n < 17 ∧ flags.getLsbD n = true ∧ mask.getLsbD n = true := by
  rw [Bool.and_eq_true, and_bne_zero_iff, Bool.not_eq_true']

theorem State.fatalAsserted_iff (s : State) : s.fatalAsserted = true ↔ s.rst = false ∧ s.events.fatalLatch = true := by
  rw [State.fatalAsserted, Bool.and_eq_true, Bool.not_eq_true']

/-- Settles O9: the two writes by the state that each leaves, the lines by the flags in their masks. -/
theorem flagClearMasksAndLines : Obligations.FlagClearMasksAndLines := by
  unfold Obligations.FlagClearMasksAndLines
  refine ⟨fun p v s hr => ⟨⟨_, exec_eventClearWrite p v hr, fun n hn => ?_⟩, ⟨v.setWidth 17, fun n hn => ?_, ?_⟩⟩,
    fun s => ⟨line_asserted_iff _ _ _, line_asserted_iff _ _ _, s.fatalAsserted_iff, fun p v => ⟨rfl, rfl, rfl⟩, rfl, rfl⟩⟩
  · simp [hn]
  · simp [hn]
  · rw [exec_lineMaskWrite p v hr]
    cases p <;> rfl

end Sys2Proof.Machine

/-! What no command but those that the manual names undoes: the event flags that are set, the FATAL latch and the records of the log
(R65, R66, R179, R182, R183). -/

namespace Sys2Proof.Machine

/-! ### What stays -/

/-- R66: what a record keeps as long as it is in the log. -/
def UeRecord.fixed (r : UeRecord) : BitVec 8 × Loc × UeClass × Origin × Bool × Time :=
  (r.id, r.loc, r.cls, r.origin, r.inRetired, r.arrival)

/-- The flags, the FATAL latch, and the records of the log by what they keep. -/
structure Marks where
  flags : BitVec 17
  latch : Bool
  log   : List (BitVec 8 × Loc × UeClass × Origin × Bool × Time)

def State.marks (s : State) : Marks := ⟨s.events.flags, s.events.fatalLatch, s.uel.records.map UeRecord.fixed⟩

/-- What a command keeps: every flag that is set, the latch, and the records in their order with new ones behind them, each unless it
is the command that undoes it. -/
structure Marks.Kept (c : Instr) (a b : Marks) : Prop where
  flags : (∀ p v, c ≠ .eventClearWrite p v) → a.flags &&& b.flags = a.flags
  latch : c ≠ .clearFatal → a.latch = true → b.latch = true
  log   : c ≠ .ackUe → a.log <+: b.log

/-- From one state to another the marks are kept as the command must keep them. -/
def KeepsMarks (c : Instr) (s t : State) : Prop := s.marks.Kept c t.marks

theorem KeepsMarks.refl {c : Instr} (s : State) : KeepsMarks c s s :=
  ⟨fun _ => BitVec.and_self, fun _ => id, fun _ => List.prefix_rfl⟩

theorem KeepsMarks.trans {c : Instr} {s t u : State} (h : KeepsMarks c s t) (k : KeepsMarks c t u) : KeepsMarks c s u where
  flags hc := by rw [← h.flags hc, BitVec.and_assoc, k.flags hc]
  latch hc hs := k.latch hc (h.latch hc hs)
  log hc := (h.log hc).trans (k.log hc)

theorem KeepsMarks.congr_left {c : Instr} {s t u : State} (h : KeepsMarks c t u) (hm : t.marks = s.marks) : KeepsMarks c s u := by
  rwa [KeepsMarks, ← hm]

/-- Only new flags and new records. -/
theorem KeepsMarks.of_grows {c : Instr} {s t : State} (he : s.events.Grows t.events)
    (hl : s.uel.records.map UeRecord.fixed <+: t.uel.records.map UeRecord.fixed) : KeepsMarks c s t where
  flags _ := he.2
  latch _ hs := (congrArg EventUnit.fatalLatch he.1).trans hs
  log _ := hl

theorem TablesOnly.keepsMarks {c : Instr} {s t : State} (h : TablesOnly s t) : KeepsMarks c s t :=
  .of_grows h.events (h.uel ▸ List.prefix_rfl)

/-! ### The operations of the blocks -/

section
variable {c : Instr} (s : State)

theorem State.setFlag_keepsMarks (f : EventFlag) : KeepsMarks c s (s.setFlag f) := (s.setFlag_tables f).keepsMarks

theorem State.setFatal_keepsMarks (x : FatalCause) : KeepsMarks c s (s.setFatal x) := by
  cases x <;> exact ⟨fun _ => BitVec.and_self, fun _ _ => rfl, fun _ => List.prefix_rfl⟩

variable (ch : Chan)

/-! The links (R107 to R122). -/

theorem State.setLinkState_keepsMarks (st : LinkState) : KeepsMarks c s (s.setLinkState ch st) :=
  (s.modLink ch fun l => { l with state := st }).setFlag_keepsMarks .linkChange

theorem State.departActive_keepsMarks (st : LinkState) : KeepsMarks c s (s.departActive ch st) := by
  have left : KeepsMarks c s (s.left ch st) := s.setLinkState_keepsMarks ch st
  exact left.trans (s.departActive_tables ch st).keepsMarks

theorem State.enterSyncing_keepsMarks : KeepsMarks c s (s.enterSyncing ch) := by
  unfold State.enterSyncing
  dsimp only
  split
  · exact s.departActive_keepsMarks ch .syncing
  · exact (s.setLinkState_keepsMarks ch .syncing).trans (State.abortRunningOn_tables _ ch).keepsMarks

theorem State.goDown_keepsMarks : KeepsMarks c s (s.goDown ch) := by
  unfold State.goDown
  refine (s.setLinkState_keepsMarks ch .down).trans ?_
  exact ((State.abandonRequests_tables _ ch none).trans (State.abortRunningOn_tables _ ch)).keepsMarks.congr_left rfl

theorem State.attemptExpiry_keepsMarks : KeepsMarks c s (s.attemptExpiry ch) := by
  unfold State.attemptExpiry
  split
  · exact .refl s
  · exact s.setLinkState_keepsMarks ch .failed

theorem State.sendCredit_keepsMarks (n : Nat) : KeepsMarks c s (s.sendCredit ch n) := by
  unfold State.sendCredit
  split <;> exact .refl s

theorem State.syncInSyncing_keepsMarks (seq : BitVec 8) : KeepsMarks c s (s.syncInSyncing ch seq) := by
  have counted : KeepsMarks c s (s.modLink ch fun l =>
      { l.startCount seq (s.queued ch) with attempts := 0, attemptTimer := none }) := .refl s
  exact (counted.trans (State.sendCredit_keepsMarks _ ch _)).trans (State.setLinkState_keepsMarks _ ch .active)

theorem State.syncInActive_keepsMarks (seq : BitVec 8) : KeepsMarks c s (s.syncInActive ch seq) := by
  have told : KeepsMarks c s ((s.modTx ch Transmitter.withdraw).abandonRequests ch (some .noAnswer)) :=
    (State.abandonRequests_tables _ ch _).keepsMarks.congr_left rfl
  exact told.trans ((State.sendCredit_keepsMarks _ ch _).congr_left rfl)

theorem State.arriveActive_keepsMarks (seq : BitVec 8) {onward : State → State} (h : ∀ t, KeepsMarks c t (onward t)) :
    KeepsMarks c s (s.arriveActive ch seq onward) := by
  unfold State.arriveActive
  dsimp only
  split
  · exact (h _).congr_left rfl
  · exact (s.setFlag_keepsMarks .reportsLost).trans ((h _).congr_left rfl)
  · exact .refl s

theorem State.arrive_keepsMarks (seq : BitVec 8) {onward : State → State} (h : ∀ t, KeepsMarks c t (onward t)) :
    KeepsMarks c s (s.arrive ch seq onward) := by
  unfold State.arrive
  split
  · exact .refl s
  · exact .refl s
  · exact .refl s
  · exact s.arriveActive_keepsMarks ch seq h

theorem State.joinQueue_keepsMarks (r : Report) : KeepsMarks c s (s.joinQueue ch r) := by
  unfold State.joinQueue
  split
  · exact .refl s
  · exact State.setFlag_keepsMarks _ .creditViolation

theorem State.arriveSync_keepsMarks (seq : BitVec 8) : KeepsMarks c s (s.arriveSync ch seq) := by
  unfold State.arriveSync
  split
  · exact .refl s
  · exact s.syncInSyncing_keepsMarks ch seq
  · exact .refl s
  · exact s.syncInActive_keepsMarks ch seq

theorem State.arriveFailing_keepsMarks : KeepsMarks c s (s.arriveFailing ch) := by
  unfold State.arriveFailing
  dsimp only
  split
  · exact .refl s
  · exact .refl s
  · exact .refl s
  · split
    · exact (State.departActive_keepsMarks _ ch .failed).congr_left rfl
    · exact .refl s

theorem State.replyExpiry_keepsMarks (tag : Tag) (q : Request) : KeepsMarks c s (s.replyExpiry ch tag q) := by
  have counted (t : State) (h : KeepsMarks c s t) : KeepsMarks c s (match q.kind with
      | .patrol => t.countSkipped ch
      | .verify => t.endRead ch tag q.number (some .noAnswer)) := by
    split
    · exact h
    · exact h.trans (t.endRead_tables ch tag q.number _).keepsMarks
  have freed : KeepsMarks c s ((s.modScrub ch fun x => { x with
      tags       := x.tags.set tag none
      timeoutRun := x.timeoutRun + 1
      counters   := { x.counters with timeouts := satInc x.counters.timeouts } }).modTx ch fun x => x.withdrawRequest tag) :=
    .refl s
  unfold State.replyExpiry
  dsimp only
  split
  · exact (counted _ freed).trans (State.departActive_keepsMarks _ ch .failed)
  · exact counted _ freed

theorem State.returnCredit_keepsMarks : KeepsMarks c s (s.returnCredit ch) := by
  unfold State.returnCredit
  split
  · dsimp only
    split
    · exact (State.sendCredit_keepsMarks _ ch _).congr_left rfl
    · exact .refl s
  · exact .refl s

/-! The issue events (R132, R133, R152). -/

theorem State.patrolStep_keepsMarks (tag : Tag) : KeepsMarks c s (s.patrolStep ch tag) := by
  have visited : KeepsMarks c s (match s.lookup ch (s.scrub ch).cursor.rank (s.scrub ch).cursor.bank (s.scrub ch).cursor.row with
      | some _ => s.modScrub ch (fun x =>
          { x with counters := { x.counters with skippedRetired := satInc x.counters.skippedRetired } })
      | none => s.issueRequest ch tag .patrol (s.scrub ch).cursor.rank (s.scrub ch).cursor.bank (s.scrub ch).cursor.row) := by
    split <;> exact .refl s
  unfold State.patrolStep
  dsimp only
  split
  · exact visited.trans (State.setFlag_keepsMarks _ .scrubPassDone)
  · exact visited

theorem State.verifyStep_keepsMarks (tag : Tag) (j : Job) : KeepsMarks c s (s.verifyStep ch tag j) := by
  unfold State.verifyStep
  split
  · exact .refl s
  · split
    · exact (s.abortJob_tables .retired j.cet).keepsMarks
    · exact .refl s

theorem State.issue_keepsMarks : KeepsMarks c s (s.issue ch) := by
  unfold State.issue
  split
  · split
    · exact .refl s
    · split
      · exact s.verifyStep_keepsMarks ch _ _
      · split
        · exact s.patrolStep_keepsMarks ch _
        · exact .refl s
  · exact .refl s

/-! The log (R70 to R75). -/

/-- R70: a new record stands behind the others. -/
theorem State.storeUe_keepsMarks (a : UeAppend) : KeepsMarks c s (s.storeUe a) :=
  .of_grows (EventUnit.Grows.or _ _) (List.map_append ▸ List.prefix_append _ _)

theorem State.ueProposal_keepsMarks (a : UeAppend) (id : BitVec 8) : KeepsMarks c s (s.ueProposal a id) := by
  unfold State.ueProposal
  split
  · exact (s.propose_tables _ _).keepsMarks
  · exact .refl s

theorem State.loseUe_keepsMarks (a : UeAppend) : KeepsMarks c s (s.loseUe a) := by
  have flagged (x : Uel) (h : x.records = s.uel.records) : KeepsMarks c s ((s.setUel x).setFlag .uelOverflow) :=
    .of_grows (EventUnit.Grows.or _ _) (h ▸ List.prefix_rfl)
  unfold State.loseUe
  dsimp only
  split
  · exact (flagged _ rfl).trans (State.setFatal_keepsMarks _ .overflow)
  · exact flagged _ rfl

theorem State.appendUe_keepsMarks (a : UeAppend) : KeepsMarks c s (s.appendUe a) := by
  unfold State.appendUe
  split
  · exact (s.storeUe_keepsMarks a).trans (State.ueProposal_keepsMarks _ a _)
  · exact s.loseUe_keepsMarks a

/-- R66: a record changed in place keeps its place. -/
theorem State.modUe_keepsMarks (i : Nat) {f : UeRecord → UeRecord} (h : ∀ r, (f r).fixed = r.fixed) :
    KeepsMarks c s (s.modUe i f) := by
  have same : (s.uel.records.modify i f).map UeRecord.fixed = s.uel.records.map UeRecord.fixed := by
    apply List.ext_getElem (by simp)
    intro k _ _
    simp only [List.getElem_map, List.getElem_modify]
    split
    · exact h _
    · rfl
  exact .of_grows (.refl _) (same ▸ List.prefix_rfl)

theorem State.handOver_keepsMarks (i : Nat) : KeepsMarks c s (s.handOver i) := by
  refine KeepsMarks.trans ?_ (State.setFlag_keepsMarks _ .ueHandover)
  exact s.modUe_keepsMarks i fun _ => rfl

theorem State.escalate_keepsMarks (i : Nat) : KeepsMarks c s (s.escalate i) := by
  have raised := (s.modUe_keepsMarks (c := c) i (f := fun r => { r with ack := .escalated, window := none }) fun _ => rfl).trans
    (State.setFlag_keepsMarks _ .ueEscalated)
  unfold State.escalate
  dsimp only
  split
  · exact raised.trans (State.setFatal_keepsMarks _ .escalation)
  · exact raised

/-- R12: the windows count down in place. -/
theorem State.lowerMs_keepsMarks : KeepsMarks c s s.lowerMs := by
  have same : (s.uel.records.map fun r => { r with window := r.window.lower }).map UeRecord.fixed =
      s.uel.records.map UeRecord.fixed := List.map_map
  exact .of_grows (.refl _) (same ▸ List.prefix_rfl)

/-! The classifier and the intake arbiter (R90 to R98). -/

theorem State.routeCorrected_keepsMarks (l : Loc) (cls : CeClass) (o : Origin) : KeepsMarks c s (s.routeCorrected l cls o) := by
  unfold State.routeCorrected
  split
  · exact (s.suppress_tables _).keepsMarks
  · exact (s.takeCe_tables _).keepsMarks

theorem State.classifyError_keepsMarks (l : Loc) (cls : ErrClass) (o : Origin) : KeepsMarks c s (s.classifyError l cls o) := by
  unfold State.classifyError
  split
  · split
    · exact s.routeCorrected_keepsMarks l _ o
    · exact s.appendUe_keepsMarks _
  · exact .refl s

theorem State.malformedReply_keepsMarks (r : ScrubReply) (q : Request) : KeepsMarks c s (s.malformedReply ch r q) := by
  unfold State.malformedReply
  dsimp only
  split
  · exact .refl s
  · exact ((s.countMalformed ch).endRead_tables ch r.tag q.number _).keepsMarks

theorem State.patrolReply_keepsMarks (r : ScrubReply) (q : Request) : KeepsMarks c s (s.patrolReply ch r q) := by
  unfold State.patrolReply
  split
  · exact .refl s
  · exact s.routeCorrected_keepsMarks _ _ _
  · exact s.appendUe_keepsMarks _
  · exact .refl s

theorem State.verifyReply_keepsMarks (r : ScrubReply) (q : Request) : KeepsMarks c s (s.verifyReply ch r q) := by
  have counted : KeepsMarks c s (s.endRead ch r.tag q.number (some r.result.counted)) := (s.endRead_tables _ _ _ _).keepsMarks
  unfold State.verifyReply
  dsimp only
  split
  · exact counted.trans (State.appendUe_keepsMarks _ _)
  · exact counted

theorem State.classifyReply_keepsMarks (r : ScrubReply) : KeepsMarks c s (s.classifyReply ch r) := by
  unfold State.classifyReply
  split
  · exact .refl s
  · dsimp only
    split
    · exact (s.freeTag ch r.tag).malformedReply_keepsMarks ch r _
    · split
      · exact (s.freeTag ch r.tag).patrolReply_keepsMarks ch r _
      · exact (s.freeTag ch r.tag).verifyReply_keepsMarks ch r _

theorem State.classify_keepsMarks (r : Report) : KeepsMarks c s (s.classify ch r) := by
  unfold State.classify
  split
  · exact s.classifyError_keepsMarks _ _ _
  · exact s.classifyReply_keepsMarks ch _

theorem State.takeFrom_keepsMarks : KeepsMarks c s (s.takeFrom ch) := by
  unfold State.takeFrom
  split
  · exact .refl s
  · next rest _ =>
    have served : KeepsMarks c s ((s.serve (.channel ch)).setQueues (s.queues.set ch rest)) := .refl s
    exact (served.trans (State.returnCredit_keepsMarks _ ch)).trans (State.classify_keepsMarks _ ch _)

theorem State.takeSlot_keepsMarks : KeepsMarks c s s.takeSlot := by
  unfold State.takeSlot
  split
  · exact .refl s
  · exact (s.setIntake { s.intake with slot := none, lastServed := .slot }).classifyError_keepsMarks _ _ _

theorem State.take_keepsMarks : KeepsMarks c s s.take := by
  unfold State.take
  split
  · exact .refl s
  · exact s.takeFrom_keepsMarks _
  · exact s.takeSlot_keepsMarks

/-! The engine, the purge and the Soft reset (R60, R61, R165, R176). -/

theorem State.setMail_keepsMarks (p : Port) (m : Mailbox) : KeepsMarks c s (s.setMail p m) := by cases p <;> exact .refl s

theorem State.latch_keepsMarks (p : Port) : KeepsMarks c s (s.latch p) := by cases p <;> exact .refl s

theorem State.complete_keepsMarks (p : Port) (code : ResultCode) (result : Pages) : KeepsMarks c s (s.complete p code result) :=
  (s.setMail_keepsMarks p _).trans (State.setFlag_keepsMarks _ _)

theorem State.endPurge_keepsMarks (g : Purge) (n : Nat) : KeepsMarks c s (s.endPurge g n) := by
  have ended : KeepsMarks c s (s.setEngine { s.engine with purge := none }) := .refl s
  unfold State.endPurge
  dsimp only
  split
  · exact ended.trans (State.complete_keepsMarks _ _ _ _)
  · exact ended

theorem State.visit_keepsMarks (g : Purge) (i : CetIdx) : KeepsMarks c s (s.visit g i).1 := by
  unfold State.visit
  split
  · exact (s.freeEntry_tables i _).keepsMarks
  · exact .refl s

theorem State.purgeStep_keepsMarks (g : Purge) : KeepsMarks c s (s.purgeStep g) := by
  unfold State.purgeStep
  split
  · exact s.endPurge_keepsMarks g _
  · next i _ =>
    have visited : KeepsMarks c s (s.visit g i).1 := s.visit_keepsMarks g i
    dsimp only
    split
    · exact visited
    · exact visited.trans (State.endPurge_keepsMarks _ g _)

theorem State.softReset_keepsMarks : KeepsMarks c s s.softReset := by
  have uel : s.softReset.uel = s.uel := (congrArg State.uel s.softReset_frame :)
  have events := s.softReset_frame.events
  generalize s.softReset = t at uel events ⊢
  refine .of_grows ?_ (uel ▸ List.prefix_rfl)
  rw [events]
  split
  · exact .refl _
  · exact .or _ _

end

/-! ### The bodies of the commands -/

/-- Whatever its port and parameters, the body of a command keeps what the command must. -/
def BodyKeepsMarks (c : Instr) (body : Body) : Prop := ∀ p ps s, KeepsMarks c s (body p ps s).1

section
variable {c : Instr} {s : State} {w : Word}

theorem withChannel_keepsMarks {f : Chan → State × Answer} (h : ∀ ch, KeepsMarks c s (f ch).1) :
    KeepsMarks c s (withChannel s w f).1 := by
  unfold withChannel
  split
  · exact .refl s
  · exact h _

theorem withScrubChannel_keepsMarks {f : Chan → State × Answer} (h : ∀ ch, KeepsMarks c s (f ch).1) :
    KeepsMarks c s (withScrubChannel s w f).1 := by
  unfold withScrubChannel
  split
  · exact .refl s
  · exact h _

theorem withCetEntry_keepsMarks {f : CetIdx → CetEntry → State × Answer} (h : ∀ i e, KeepsMarks c s (f i e).1) :
    KeepsMarks c s (withCetEntry s w f).1 := by
  unfold withCetEntry withCetIndex
  split
  · exact .refl s
  · dsimp only
    split
    · exact .refl s
    · exact h _ _

theorem withRetEntry_keepsMarks {needs : RetState} {f : RetIdx → RetEntry → State × Answer}
    (h : ∀ i e, KeepsMarks c s (f i e).1) : KeepsMarks c s (withRetEntry s w needs f).1 := by
  unfold withRetEntry withRetIndex
  split
  · exact .refl s
  · dsimp only
    split
    · exact .refl s
    · split
      · exact h _ _
      · exact .refl s

/-! The link commands and the Soft reset set flags; the frees and the jobs change the tables. -/

theorem bodyLinkEnable_keepsMarks : BodyKeepsMarks c bodyLinkEnable := fun _ _ s => withChannel_keepsMarks fun ch => by
  split
  · exact s.enterSyncing_keepsMarks ch
  · exact .refl s

theorem bodyLinkDisable_keepsMarks : BodyKeepsMarks c bodyLinkDisable := fun _ _ s => withChannel_keepsMarks fun ch => by
  split
  · exact .refl s
  · exact s.goDown_keepsMarks ch

theorem bodyResyncLink_keepsMarks : BodyKeepsMarks c bodyResyncLink := fun _ _ s => withChannel_keepsMarks fun ch => by
  split
  · exact s.enterSyncing_keepsMarks ch
  · exact .refl s

theorem bodyEngineReset_keepsMarks : BodyKeepsMarks c bodyEngineReset := fun _ _ s => by
  have reset : KeepsMarks c s s.softReset := s.softReset_keepsMarks
  unfold bodyEngineReset
  generalize s.softReset = t at reset ⊢
  exact reset

theorem bodyClearCetEntry_keepsMarks : BodyKeepsMarks c bodyClearCetEntry := fun _ _ s =>
  withCetEntry_keepsMarks fun i _ => (s.freeEntry_tables i _).keepsMarks

theorem bodyClearCetAll_keepsMarks : BodyKeepsMarks c bodyClearCetAll := fun _ _ s => (s.freeAll_tables _ _).keepsMarks

theorem bodyStartVerify_keepsMarks : BodyKeepsMarks c bodyStartVerify := fun _ _ s => withCetEntry_keepsMarks fun i e => by
  split
  · split
    · exact (s.createJob_tables i _).keepsMarks
    · exact .refl s
  · exact .refl s

theorem bodyRejectRetire_keepsMarks : BodyKeepsMarks c bodyRejectRetire := fun _ _ s => withRetEntry_keepsMarks fun _ _ => by
  split
  · next i _ => exact (s.freeEntry_tables i (some .cleared)).keepsMarks
  · exact .refl s

/-! The two commands that undo a mark undo no other. -/

theorem bodyClearFatal_keepsMarks : BodyKeepsMarks .clearFatal bodyClearFatal := fun _ _ _ =>
  ⟨fun _ => BitVec.and_self, fun h => absurd rfl h, fun _ => List.prefix_rfl⟩

theorem bodyAckUe_keepsMarks : BodyKeepsMarks .ackUe bodyAckUe := fun p ps s => by
  unfold bodyAckUe
  dsimp only
  split
  · exact .refl s
  · split
    · exact .refl s
    · split
      · exact .refl s
      · split
        · exact ⟨fun _ => BitVec.and_self, fun _ => id, fun h => absurd rfl h⟩
        · exact .refl s

/-! The others reach neither the event unit nor the records, whatever branch is taken. -/

theorem bodyConfigureChannel_keepsMarks : BodyKeepsMarks c bodyConfigureChannel := fun _ _ s =>
  withChannel_keepsMarks fun _ => by
    dsimp only
    repeat' split
    all_goals exact .refl s

theorem bodySetPolicy_keepsMarks : BodyKeepsMarks c bodySetPolicy := fun _ _ s => by
  unfold bodySetPolicy PolicyWords.apply
  dsimp only
  repeat' split
  all_goals exact .refl s

theorem bodyReadCet_keepsMarks : BodyKeepsMarks c bodyReadCet := fun _ _ s => by
  unfold bodyReadCet withCetIndex
  split <;> exact .refl s

theorem bodyFindCet_keepsMarks : BodyKeepsMarks c bodyFindCet := fun _ _ s => by
  unfold bodyFindCet
  repeat' split
  all_goals exact .refl s

theorem bodyPinCet_keepsMarks : BodyKeepsMarks c bodyPinCet := fun _ _ s => withCetEntry_keepsMarks fun _ _ => by
  repeat' split
  all_goals exact .refl s

theorem bodyUnpinCet_keepsMarks : BodyKeepsMarks c bodyUnpinCet := fun _ _ s => withCetEntry_keepsMarks fun _ _ => .refl s

theorem bodyReadRetire_keepsMarks : BodyKeepsMarks c bodyReadRetire := fun _ _ s => by
  unfold bodyReadRetire withRetIndex
  split <;> exact .refl s

theorem bodyFindRetire_keepsMarks : BodyKeepsMarks c bodyFindRetire := fun _ _ s => by
  unfold bodyFindRetire
  repeat' split
  all_goals exact .refl s

theorem bodyAddRetire_keepsMarks : BodyKeepsMarks c bodyAddRetire := fun _ _ s => by
  unfold bodyAddRetire
  repeat' split
  all_goals exact .refl s

theorem bodyConfirmRetire_keepsMarks : BodyKeepsMarks c bodyConfirmRetire := fun _ _ s =>
  withRetEntry_keepsMarks fun _ _ => .refl s

theorem bodyRemoveRetire_keepsMarks : BodyKeepsMarks c bodyRemoveRetire := fun _ _ s =>
  withRetEntry_keepsMarks fun _ _ => .refl s

theorem bodyReadUe_keepsMarks : BodyKeepsMarks c bodyReadUe := fun _ _ s => by
  unfold bodyReadUe
  repeat' split
  all_goals exact .refl s

theorem bodyReadUeOverflow_keepsMarks : BodyKeepsMarks c bodyReadUeOverflow := fun _ _ s => by
  unfold bodyReadUeOverflow
  dsimp only
  repeat' split
  all_goals exact .refl s

theorem bodyScrubStart_keepsMarks : BodyKeepsMarks c bodyScrubStart := fun _ _ s => withScrubChannel_keepsMarks fun _ => by
  repeat' split
  all_goals exact .refl s

theorem bodyScrubStop_keepsMarks : BodyKeepsMarks c bodyScrubStop := fun _ _ s => withScrubChannel_keepsMarks fun _ => .refl s

theorem bodySetCursor_keepsMarks : BodyKeepsMarks c bodySetCursor := fun _ _ s => withScrubChannel_keepsMarks fun _ => by
  repeat' split
  all_goals exact .refl s

theorem bodySetPacing_keepsMarks : BodyKeepsMarks c bodySetPacing := fun _ _ s => withScrubChannel_keepsMarks fun _ => by
  dsimp only
  split <;> exact .refl s

theorem bodySetHoldPolicy_keepsMarks : BodyKeepsMarks c bodySetHoldPolicy := fun _ _ s => withScrubChannel_keepsMarks fun _ => by
  dsimp only
  repeat' split
  all_goals exact .refl s

theorem bodySetTimeout_keepsMarks : BodyKeepsMarks c bodySetTimeout := fun _ _ s => withScrubChannel_keepsMarks fun _ => by
  dsimp only
  split <;> exact .refl s

theorem bodyReadCounters_keepsMarks : BodyKeepsMarks c bodyReadCounters := fun _ _ s => withChannel_keepsMarks fun _ => by
  repeat' split
  all_goals exact .refl s

theorem bodyInjectReport_keepsMarks : BodyKeepsMarks c bodyInjectReport := fun _ _ s => by
  unfold bodyInjectReport
  repeat' split
  all_goals exact .refl s

theorem bodySetAuthority_keepsMarks : BodyKeepsMarks c bodySetAuthority := fun _ _ s => by
  unfold bodySetAuthority
  split <;> exact .refl s

theorem bodySetServiceFirst_keepsMarks : BodyKeepsMarks c bodySetServiceFirst := fun _ _ s => by
  unfold bodySetServiceFirst
  split <;> exact .refl s

end

/-! ### What every command keeps -/

section
variable {c : Instr} {s t : State}

/-- R164, R165: the take of a command, by what its body keeps. -/
theorem engineTake_keepsMarks {body : Body} (hb : BodyKeepsMarks c body) (s : State) (names : Word → Table Word 6 → Bool)
    (a : Admission) : KeepsMarks c s (s.engineTake names a body) := by
  unfold State.engineTake
  split
  · exact .refl s
  · next p _ =>
    have latched : KeepsMarks c s (s.latch p) := s.latch_keepsMarks p
    split
    · unfold State.carryOut
      split
      · have carried := latched.trans (hb p ((s.latch p).mail p).latched (s.latch p))
        generalize body p ((s.latch p).mail p).latched (s.latch p) = x at carried
        obtain ⟨t, ⟨code, result⟩ | _⟩ := x
        · exact carried.trans (t.complete_keepsMarks p code result)
        · exact carried
      · exact latched.trans (State.complete_keepsMarks _ p _ _)
    · exact .refl s

/-- R184: while RST_N is asserted nothing happens, and otherwise the meaning decides. -/
theorem event_keepsMarks {f : State → State} (h : s.whileRunning f = .next t) (hf : KeepsMarks c s (f s)) : KeepsMarks c s t := by
  cases hr : s.rst with
  | true => rw [State.whileRunning_held hr] at h; cases h; exact .refl s
  | false => rw [State.whileRunning_running hr] at h; cases h; exact hf

/-- An effect on a condition. -/
theorem KeepsMarks.ite {p : Prop} [Decidable p] {u : State} (h : KeepsMarks c s u) : KeepsMarks c s (if p then u else s) := by
  split
  · exact h
  · exact .refl s

theorem command_keepsMarks {body : Body} {names : Word → Table Word 6 → Bool} {a : Admission}
    (h : s.whileRunning (fun s => s.engineTake names a body) = .next t) (hb : BodyKeepsMarks c body) : KeepsMarks c s t :=
  event_keepsMarks h (engineTake_keepsMarks hb s names a)

theorem result0Read_keepsMarks (s : State) (p : Port) (edge : Bool) (v : Word) (m : Mailbox) :
    KeepsMarks c s (if edge then (s.drive p v).setMail p m else s.drive p v) := by
  have driven : KeepsMarks c s (s.drive p v) := by cases p <;> exact .refl s
  split
  · exact driven.trans (State.setMail_keepsMarks _ p m)
  · exact driven

theorem registerWriteIgnored_keepsMarks {p : Port} {index : Fin 64} {v : Word}
    (h : execRegisterWriteIgnored p index v s = .next t) : KeepsMarks c s t := by
  unfold execRegisterWriteIgnored at h
  split at h
  · cases h; exact .refl s
  · cases h

theorem unknownKindFrame_keepsMarks {ch : Chan} {seq : BitVec 8} {kind : Byte}
    (h : execUnknownKindFrame ch seq kind s = .next t) : KeepsMarks c s t := by
  unfold execUnknownKindFrame at h
  split at h
  · cases h
  · exact event_keepsMarks h (s.arrive_keepsMarks ch seq fun t => .refl t)

/-- Every command but FULL_RESET keeps every mark but its own. -/
theorem exec_keepsMarks (h : exec c s = .next t) (hc : c ≠ .fullReset) : KeepsMarks c s t := by
  unfold exec at h
  cases c with
  | fullReset => exact absurd rfl hc
  | fullResetEnd => cases h; split <;> exact .refl s
  | pacingBaseTick => exact event_keepsMarks h (.refl s)
  | eventClockAdvance => exact event_keepsMarks h (.ite s.lowerMs_keepsMarks)
  | commandWrite p | paramWrite p | mailboxStatusWrite p => exact event_keepsMarks h (s.setMail_keepsMarks p _)
  | result0Read p edge => exact event_keepsMarks h (result0Read_keepsMarks s p edge _ _)
  | eventClearWrite p v => exact event_keepsMarks h ⟨fun h => absurd rfl (h p v), fun _ => id, fun _ => List.prefix_rfl⟩
  | lineMaskWrite p v => exact event_keepsMarks h (by cases p <;> exact .refl s)
  | registerWriteIgnored => exact registerWriteIgnored_keepsMarks h
  | badCommand | readStatus | scrubControlBadAction => exact command_keepsMarks h fun _ _ s => .refl s
  | configureChannel => exact command_keepsMarks h bodyConfigureChannel_keepsMarks
  | linkEnable => exact command_keepsMarks h bodyLinkEnable_keepsMarks
  | linkDisable => exact command_keepsMarks h bodyLinkDisable_keepsMarks
  | resyncLink => exact command_keepsMarks h bodyResyncLink_keepsMarks
  | setPolicy => exact command_keepsMarks h bodySetPolicy_keepsMarks
  | readCet => exact command_keepsMarks h bodyReadCet_keepsMarks
  | findCet => exact command_keepsMarks h bodyFindCet_keepsMarks
  | clearCetEntry => exact command_keepsMarks h bodyClearCetEntry_keepsMarks
  | clearCetAll => exact command_keepsMarks h bodyClearCetAll_keepsMarks
  | pinCet => exact command_keepsMarks h bodyPinCet_keepsMarks
  | unpinCet => exact command_keepsMarks h bodyUnpinCet_keepsMarks
  | startVerify => exact command_keepsMarks h bodyStartVerify_keepsMarks
  | readRetire => exact command_keepsMarks h bodyReadRetire_keepsMarks
  | findRetire => exact command_keepsMarks h bodyFindRetire_keepsMarks
  | addRetire => exact command_keepsMarks h bodyAddRetire_keepsMarks
  | confirmRetire => exact command_keepsMarks h bodyConfirmRetire_keepsMarks
  | rejectRetire => exact command_keepsMarks h bodyRejectRetire_keepsMarks
  | removeRetire => exact command_keepsMarks h bodyRemoveRetire_keepsMarks
  | readUe => exact command_keepsMarks h bodyReadUe_keepsMarks
  | ackUe => exact command_keepsMarks h bodyAckUe_keepsMarks
  | readUeOverflow => exact command_keepsMarks h bodyReadUeOverflow_keepsMarks
  | scrubStart => exact command_keepsMarks h bodyScrubStart_keepsMarks
  | scrubStop => exact command_keepsMarks h bodyScrubStop_keepsMarks
  | setCursor => exact command_keepsMarks h bodySetCursor_keepsMarks
  | setPacing => exact command_keepsMarks h bodySetPacing_keepsMarks
  | setHoldPolicy => exact command_keepsMarks h bodySetHoldPolicy_keepsMarks
  | setTimeout => exact command_keepsMarks h bodySetTimeout_keepsMarks
  | readCounters => exact command_keepsMarks h bodyReadCounters_keepsMarks
  | injectReport => exact command_keepsMarks h bodyInjectReport_keepsMarks
  | setAuthority => exact command_keepsMarks h bodySetAuthority_keepsMarks
  | setServiceFirst => exact command_keepsMarks h bodySetServiceFirst_keepsMarks
  | clearFatal => exact command_keepsMarks h bodyClearFatal_keepsMarks
  | engineReset => exact command_keepsMarks h bodyEngineReset_keepsMarks
  | purgeVisit =>
    refine event_keepsMarks h ?_
    split
    · exact .refl s
    · exact s.purgeStep_keepsMarks _
  | error ch seq | scrubReply ch seq =>
    exact event_keepsMarks h (s.arrive_keepsMarks ch seq fun t => (t.accept ch).joinQueue_keepsMarks ch _)
  | hold ch seq | resume ch seq => exact event_keepsMarks h (s.arrive_keepsMarks ch seq fun t => .refl t)
  | sync ch seq => exact event_keepsMarks h (s.arriveSync_keepsMarks ch seq)
  | unknownKindFrame => exact unknownKindFrame_keepsMarks h
  | frameCheckFailure ch => exact event_keepsMarks h (s.arriveFailing_keepsMarks ch)
  | syncAttemptExpiry ch => exact event_keepsMarks h (.ite (s.attemptExpiry_keepsMarks ch))
  | frameTransmission ch =>
    refine event_keepsMarks h ?_
    split <;> exact .refl s
  | frameTransmissionEnd => exact event_keepsMarks h (.refl s)
  | intakeTake => exact event_keepsMarks h s.take_keepsMarks
  | issueEvent ch => exact event_keepsMarks h (s.issue_keepsMarks ch)
  | pacingExpiry => exact event_keepsMarks h (.ite (.refl s))
  | replyTimeout ch tag =>
    refine event_keepsMarks h ?_
    split
    · exact .refl s
    · exact .ite (s.replyExpiry_keepsMarks ch tag _)
  | holdCeilingExpiry ch => exact event_keepsMarks h (.ite (s.setFlag_keepsMarks .holdOverrun))
  | systemWindowExpiry => exact event_keepsMarks h (.ite (s.handOver_keepsMarks _))
  | serviceWindowExpiry => exact event_keepsMarks h (.ite (s.escalate_keepsMarks _))
  | leakExpiry => exact event_keepsMarks h (.ite s.leakTable_tables.keepsMarks)

/-! ### The FATAL latch at a CLEAR_FATAL -/

/-- R164: the arbiter chooses no port but the one that the rule names. -/
theorem State.chosen_of_choice {p : Port} (hr : s.rst = false) (h : s.arbiterChoice = some p) : s.Chosen p := by
  obtain ⟨sysIdle, svcIdle⟩ := State.arbiterChoice_idle h
  unfold State.arbiterChoice at h
  split at h
  · split at h
    · cases h
    · next sys svc => cases h; exact ⟨hr, eq_of_beq sys, svcIdle, fun both => absurd both (beq_eq_false_iff_ne.mp svc)⟩
    · next sys svc => cases h; exact ⟨hr, eq_of_beq svc, sysIdle, fun both => absurd both (beq_eq_false_iff_ne.mp sys)⟩
    · next sys svc =>
      split at h
      · next first => cases h; exact ⟨hr, eq_of_beq svc, sysIdle, fun _ => by rw [if_pos first]⟩
      · next first =>
        split at h
        · next last => cases h; exact ⟨hr, eq_of_beq svc, sysIdle, fun _ => by rw [if_neg first]; exact last⟩
        · next last => cases h; exact ⟨hr, eq_of_beq sys, svcIdle, fun _ => by rw [if_neg first]; exact last⟩
  · cases h

/-- R166, R174, R183: where a CLEAR_FATAL takes the latch away, the engine has taken it from the Service port. -/
theorem takes_of_clearFatal (h : exec .clearFatal s = .next t) (hs : s.events.fatalLatch = true)
    (ht : t.events.fatalLatch = false) : s.Takes .service 82 := by
  have kept {u : State} (hu : exec .clearFatal s = .next u) (latch : u.events.fatalLatch = s.events.fatalLatch) : False := by
    cases hu.symm.trans h
    exact Bool.false_ne_true (ht.symm.trans (latch.trans hs))
  cases hr : s.rst with
  | true => exact (kept (State.whileRunning_held hr (State.engineTake · (codeIs 82) .serviceOnly bodyClearFatal)) rfl).elim
  | false =>
    cases hp : s.arbiterChoice with
    | none => exact (kept (State.engineTake_idle hp (codeIs 82) .serviceOnly bodyClearFatal) rfl).elim
    | some p =>
      have chosen := State.chosen_of_choice hr hp
      by_cases code : (s.mail p).command = BitVec.ofNat 32 82
      · cases p with
        | service => exact ⟨chosen, code⟩
        | system => exact (kept (chosen.run_system_denied code bodyClearFatal) rfl).elim
      · have idle : s.engineTake (codeIs 82) .serviceOnly bodyClearFatal = s := by
          simp [State.engineTake, hp, codeIs, code]
        exact (kept (State.whileRunning_idle (f := (State.engineTake · (codeIs 82) .serviceOnly bodyClearFatal)) idle) rfl).elim

/-- Settles O54: a command keeps every mark but its own, and the latch leaves only at a CLEAR_FATAL from the Service port. -/
theorem flagsLatchAndRecordsPersist : Obligations.FlagsLatchAndRecordsPersist := by
  unfold Obligations.FlagsLatchAndRecordsPersist
  refine ⟨fun c s t h hw hc f hf => ?_, fun c s t h hc hs ht => ?_, fun c s t h hc ha => (exec_keepsMarks h hc).log ha⟩
  · have kept := congrArg (BitVec.getLsbD · f.pos.val) ((exec_keepsMarks h hc).flags hw)
    simp only [BitVec.getLsbD_and] at kept
    exact (Bool.and_eq_true_iff.mp (kept.trans hf)).2
  · by_cases clear : c = .clearFatal
    · subst clear
      exact ⟨rfl, takes_of_clearFatal h hs ht⟩
    · exact absurd ((exec_keepsMarks h hc).latch clear hs) (Bool.eq_false_iff.mp ht)

end

end Sys2Proof.Machine

/-! The actions of SCRUB_CONTROL (R143, R144, R188). -/

namespace Sys2Proof.Machine

/-! ### A SCRUB_CONTROL on a channel -/

section
variable {s : State} {p : Port} {ch : Chan}

theorem withScrubChannel_eq {w : Word} (h : field w 3 0 = ch.val) (f : Chan → State × Answer) : withScrubChannel s w f = f ch := by
  simp only [withScrubChannel, finOf_some h]

theorem State.latch_scrub (s : State) (p : Port) (ch : Chan) : (s.latch p).scrub ch = s.scrub ch := by cases p <;> rfl

/-- R143: the take of an action on the channel that PARAM0 names. -/
theorem State.TakesAction.run_channel {n : Nat} (h : s.TakesAction p n) (hc : field (s.param p 0) 3 0 = ch.val)
    (g : Table Word 6 → State → Chan → State × Answer) :
    s.whileRunning (fun s => s.engineTake (actionIs n) .any fun _ ps s => withScrubChannel s (ps.get 0) (g ps s)) =
      .next (State.answered p (g (s.mail p).params (s.latch p) ch)) :=
  (h.run _).trans (congrArg (fun x => Host.Outcome.next (State.answered p x)) (withScrubChannel_eq hc _))

/-- The scrub context of a channel replaced. -/
def State.withScrub (s : State) (ch : Chan) (c : Scrub) : State := { s with scrubs := s.scrubs.set ch c }

/-- R144: an action that changes the scrub context of its channel answers with the scrub state that it leaves. -/
theorem State.answered_okScrub (s : State) (p : Port) (ch : Chan) (f : Scrub → Scrub) :
    State.answered p (((s.latch p).modScrub ch f).okScrub ch) =
      (s.withScrub ch (f (s.scrub ch))).withOk p (scrubPage (f (s.scrub ch))) := by
  have placed : (s.latch p).modScrub ch f = (s.withScrub ch (f (s.scrub ch))).asTaken (s.latch p) := by cases p <;> rfl
  have left : ((s.latch p).modScrub ch f).scrub ch = f (s.scrub ch) := by
    rw [State.scrub_modScrub, if_pos rfl, s.latch_scrub]
  rw [State.okScrub, left, placed]
  exact State.answered_placed (s := s) (t := s.withScrub ch _) p ⟨rfl, rfl, rfl⟩ _ _

/-! ### START and STOP -/

theorem patrolModeOfCode_code (m : PatrolMode) : patrolModeOfCode m.code = some m := by cases m <;> rfl

theorem patrolModeOfCode_none {n : Nat} (h : 2 ≤ n) : patrolModeOfCode n = none := by
  match n, h with
  | _ + 2, _ => rfl

/-- R143: START by the mode code, and then by the patrol state. -/
theorem State.TakesAction.scrubStart (h : s.TakesAction p 0) (hc : field (s.param p 0) 3 0 = ch.val) :
    exec .scrubStart s = .next (
      match patrolModeOfCode (s.param p 1).toNat with
      | none => s.withRefusal p .badParam
      | some m =>
        if (s.scrub ch).patrol = .stopped then
          let c := { s.scrub ch with
            mode := m, stepDue := true, patrol := if (s.scrub ch).holdFlag = true then .held else .running }
          (s.withScrub ch c).withOk p (scrubPage c)
        else s.withRefusal p .stateConflict) := by
  refine (h.run_channel hc _).trans (congrArg _ ?_)
  rw [show (s.mail p).params.get 1 = s.param p 1 from rfl, s.latch_scrub]
  cases patrolModeOfCode (s.param p 1).toNat with
  | none => exact s.answered_latch p _ _
  | some m =>
    dsimp only
    split
    · exact s.answered_okScrub p ch _
    · exact s.answered_latch p _ _

/-- R143. -/
theorem State.TakesAction.scrubStop (h : s.TakesAction p 1) (hc : field (s.param p 0) 3 0 = ch.val) :
    exec .scrubStop s = .next ((s.withScrub ch (s.scrub ch).stop).withOk p (scrubPage (s.scrub ch).stop)) :=
  (h.run_channel hc _).trans (congrArg _ (s.answered_okScrub p ch Scrub.stop))

/-! ### SET_CURSOR -/

theorem cursorParam_some {a b : Word} {k : Cursor} (rank : field a 7 4 = k.rank.val) (bank : field a 15 8 = k.bank.val)
    (row : field b 19 0 = k.row.val) : cursorParam a b = some k := by
  simp [cursorParam, finOf_some rank, finOf_some bank, finOf_some row]

theorem cursorParam_none {a b : Word} (h : 4 ≤ field a 7 4 ∨ 32 ≤ field a 15 8 ∨ 262144 ≤ field b 19 0) :
    cursorParam a b = none := by
  simp only [cursorParam, Option.bind_eq_bind, Option.bind_eq_none_iff]
  intro rank hr bank hb row hw
  rcases h with h | h | h
  · rw [finOf_none h] at hr; cases hr
  · rw [finOf_none h] at hb; cases hb
  · rw [finOf_none h] at hw; cases hw

/-- R144: SET_CURSOR by the cursor that its words name, its place in the geometry, and then by the patrol state. -/
theorem State.TakesAction.setCursor (h : s.TakesAction p 2) (hc : field (s.param p 0) 3 0 = ch.val) :
    exec .setCursor s = .next (
      match cursorParam (s.param p 1) (s.param p 2) with
      | none => s.withRefusal p .badParam
      | some k =>
        if (s.geometry ch).admits k.rank k.bank k.row = true then
          if (s.scrub ch).patrol = .stopped then
            (s.withScrub ch { s.scrub ch with cursor := k }).withOk p (scrubPage { s.scrub ch with cursor := k })
          else s.withRefusal p .stateConflict
        else s.withRefusal p .badParam) := by
  refine (h.run_channel hc _).trans (congrArg _ ?_)
  rw [show (s.mail p).params.get 1 = s.param p 1 from rfl, show (s.mail p).params.get 2 = s.param p 2 from rfl,
    s.latch_scrub, s.latch_geometry]
  cases cursorParam (s.param p 1) (s.param p 2) with
  | none => exact s.answered_latch p _ _
  | some k =>
    dsimp only
    split
    · split
      · exact s.answered_okScrub p ch _
      · exact s.answered_latch p _ _
    · exact s.answered_latch p _ _

/-! ### SET_PACING, SET_HOLD_POLICY and SET_TIMEOUT -/

/-- R144: an action with a test of its values. -/
theorem State.answered_okScrub_if (s : State) (p : Port) (ch : Chan) (fits : Prop) [Decidable fits] (f : Scrub → Scrub) :
    State.answered p (if fits then ((s.latch p).modScrub ch f).okScrub ch else (s.latch p, refusal .badParam)) =
      if fits then (s.withScrub ch (f (s.scrub ch))).withOk p (scrubPage (f (s.scrub ch))) else s.withRefusal p .badParam := by
  split
  · exact s.answered_okScrub p ch f
  · exact s.answered_latch p _ _

theorem State.TakesAction.setPacing (h : s.TakesAction p 3) (hc : field (s.param p 0) 3 0 = ch.val) :
    exec .setPacing s = .next (
      if 1 ≤ (s.param p 1).toNat ∧ (s.param p 1).toNat ≤ 65535 then
        let c := { s.scrub ch with pacing := (s.param p 1).toNat }
        (s.withScrub ch c).withOk p (scrubPage c)
      else s.withRefusal p .badParam) :=
  (h.run_channel hc _).trans (congrArg _ (s.answered_okScrub_if p ch _ _))

theorem State.TakesAction.setTimeout (h : s.TakesAction p 5) (hc : field (s.param p 0) 3 0 = ch.val) :
    exec .setTimeout s = .next (
      if 1 ≤ (s.param p 1).toNat ∧ (s.param p 1).toNat ≤ 255 then
        let c := { s.scrub ch with replyTimeout := (s.param p 1).toNat }
        (s.withScrub ch c).withOk p (scrubPage c)
      else s.withRefusal p .badParam) :=
  (h.run_channel hc _).trans (congrArg _ (s.answered_okScrub_if p ch _ _))

theorem holdPolicyOfCode_some {n : Nat} (h : n ≤ 1) : holdPolicyOfCode n = some (if n = 0 then .immediate else .segment) := by
  match n, h with
  | 0, _ | 1, _ => rfl

theorem holdPolicyOfCode_none {n : Nat} (h : ¬n ≤ 1) : holdPolicyOfCode n = none := by
  match n, h with
  | 0, h | 1, h => simp at h
  | _ + 2, _ => rfl

/-- R144: a DRAINING patrol is held at once under IMMEDIATE, and under SEGMENT at a multiple of the segment size. -/
theorem Scrub.setHoldPolicy_eq (c : Scrub) (policy : HoldPolicy) (segment ceiling : Nat) :
    c.setHoldPolicy policy segment ceiling = { c with
      holdPolicy := policy
      segment := segment
      ceiling := ceiling
      patrol := if c.patrol = .draining ∧ (policy = .immediate ∨ c.cursor.row.val % segment = 0) then .held else c.patrol } := by
  cases policy with
  | immediate => simp only [Scrub.setHoldPolicy, true_or, and_true]; split <;> rfl
  | segment => simp only [Scrub.setHoldPolicy, Scrub.segmentTest, reduceCtorEq, false_or]; split <;> rfl

/-- R144: SET_HOLD_POLICY by the ranges of its three values. -/
theorem State.TakesAction.setHoldPolicy (h : s.TakesAction p 4) (hc : field (s.param p 0) 3 0 = ch.val) :
    exec .setHoldPolicy s = .next (
      if (s.param p 1).toNat ≤ 1 ∧ 1 ≤ (s.param p 2).toNat ∧ (s.param p 2).toNat ≤ 64 ∧ (s.param p 3).toNat ≤ 65535 then
        let c := (s.scrub ch).setHoldPolicy (if (s.param p 1).toNat = 0 then .immediate else .segment) (s.param p 2).toNat
          (s.param p 3).toNat
        (s.withScrub ch c).withOk p (scrubPage c)
      else s.withRefusal p .badParam) := by
  refine (h.run_channel hc _).trans (congrArg _ ?_)
  rw [show (s.mail p).params.get 1 = s.param p 1 from rfl, show (s.mail p).params.get 2 = s.param p 2 from rfl,
    show (s.mail p).params.get 3 = s.param p 3 from rfl]
  by_cases known : (s.param p 1).toNat ≤ 1
  · simp only [holdPolicyOfCode_some known, known, true_and]
    exact s.answered_okScrub_if p ch _ _
  · simp only [holdPolicyOfCode_none known, known, false_and, if_false]
    exact s.answered_latch p _ _

end

/-- Settles O29: each action by its tests in their order, on the scrub context of its channel. -/
theorem scrubControlActions : Obligations.ScrubControlActions := by
  unfold Obligations.ScrubControlActions
  refine ⟨fun p ch s hc => ⟨fun h => ⟨fun m hm => ?_, fun unknown => ?_⟩, fun h => h.scrubStop hc⟩,
    fun p ch s hc => ⟨fun h => ⟨fun k rank bank row => ?_, fun beyond => ?_⟩, fun h => ?_, fun h => ?_, fun h => ?_⟩⟩
  · have code : patrolModeOfCode (s.param p 1).toNat = some m := by
      rw [toNat_of_num hm (by cases m <;> decide), patrolModeOfCode_code]
    rw [h.scrubStart hc, code]
    exact ⟨fun stopped => congrArg _ (if_pos stopped), fun moving => congrArg _ (if_neg moving)⟩
  · rw [h.scrubStart hc, patrolModeOfCode_none unknown]
  · rw [h.setCursor hc, cursorParam_some rank bank row]
    refine ⟨fun outside => ?_, fun within moving => ?_, fun within stopped => ?_⟩
    · simp only [outside, Bool.false_eq_true, if_false]
    · simp only [within, if_true, moving, if_false]
    · simp only [within, if_true, stopped]
      rfl
  · rw [h.setCursor hc, cursorParam_none beyond]
  · rw [h.setPacing hc]
    split <;> rfl
  · have zero : s.param p 1 = 0 ↔ (s.param p 1).toNat = 0 := BitVec.toNat_eq
    have policy : (if (s.param p 1).toNat = 0 then HoldPolicy.immediate else .segment) = .immediate ↔ (s.param p 1).toNat = 0 := by
      split <;> simp [*]
    rw [h.setHoldPolicy hc]
    simp only [Scrub.setHoldPolicy_eq, policy, zero]
    split <;> rfl
  · rw [h.setTimeout hc]
    split <;> rfl

end Sys2Proof.Machine

/-! The link frames: what the receiver reads out of the frame of a report, and the arrival that each kind byte makes (R102 to R104,
R189). -/

namespace Sys2Proof.Machine

/-! ### The check value -/

theorem Frame.passes_iff {f : Frame} : f.passes = true ↔ f.get 7 = crc (f.cells.take 7) := beq_iff_eq

/-- R102: a frame that is made with its check value passes the check. -/
theorem frameOf_passes (kind seq : Byte) (b : BitVec 40) : (frameOf kind seq b).passes = true := Frame.passes_iff.mpr rfl

theorem DownFrame.bytes_passes (f : DownFrame) : f.bytes.passes = true := by
  cases f <;> exact frameOf_passes _ _ _

/-- R102: a frame that passes the check does not pass it with another check value. -/
theorem Frame.set_check_fails {f : Frame} (h : f.passes = true) {wrong : Byte} (hw : wrong ≠ f.get 7) :
    Frame.passes (f.set 7 wrong) = false := by
  rw [Bool.eq_false_iff, Ne, Frame.passes_iff, Table.get_set_self]
  have kept : (f.set 7 wrong).cells.take 7 = f.cells.take 7 := List.take_set_of_le (le_refl 7)
  rw [kept, ← Frame.passes_iff.mp h]
  exact hw

theorem Frame.arrival_passing {f : Frame} (h : f.passes = true) (ch : Chan) : f.arrival ch = f.meaning ch := if_pos h

theorem Frame.arrival_failing {f : Frame} (h : f.passes = false) (ch : Chan) : f.arrival ch = .frameCheckFailure ch := by
  rw [Frame.arrival, h]; rfl

/-! ### The kind byte -/

section
variable {f : Frame} (ch : Chan)

theorem Frame.meaning_hold (h : f.get 0 = 3) : f.meaning ch = .hold ch (f.get 1) := by rw [Frame.meaning, h]; rfl

theorem Frame.meaning_resume (h : f.get 0 = 4) : f.meaning ch = .resume ch (f.get 1) := by rw [Frame.meaning, h]; rfl

theorem Frame.meaning_sync (h : f.get 0 = 5) : f.meaning ch = .sync ch (f.get 1) := by rw [Frame.meaning, h]; rfl

/-- R116, R189: a byte 0 that names no upstream kind. -/
theorem Frame.meaning_unknown (h : upstreamKind (f.get 0) = false) : f.meaning ch = .unknownKindFrame ch (f.get 1) (f.get 0) := by
  unfold Frame.meaning
  split
  case h_6 => rfl
  all_goals simp_all [upstreamKind]

theorem upstreamKind_eq_false {b : Byte} : upstreamKind b = false ↔ ¬(1 ≤ b.toNat ∧ b.toNat ≤ 5) := by
  simp [upstreamKind]

theorem upstreamKind_cases {b : Byte} (h : upstreamKind b = true) :
    b.toNat = 1 ∨ b.toNat = 2 ∨ b.toNat = 3 ∨ b.toNat = 4 ∨ b.toNat = 5 := by
  rw [upstreamKind, Bool.and_eq_true, decide_eq_true_eq, decide_eq_true_eq] at h
  omega

/-- R189: the arrival of every frame is a row of the table. -/
theorem Frame.arrival_wellFormed (f : Frame) : (f.arrival ch).wellFormed = true := by
  cases passes : f.passes with
  | false => rw [Frame.arrival_failing passes]; rfl
  | true =>
    rw [Frame.arrival_passing passes]
    cases kind : upstreamKind (f.get 0) with
    | false => simp [Frame.meaning_unknown ch kind, Instr.wellFormed, kind]
    | true =>
      rcases upstreamKind_cases kind with n | n | n | n | n <;> rw [Frame.meaning, n] <;> rfl

end

/-! ### The payload -/

/-- R189: bytes 2 to 6 of a frame hold its payload. -/
theorem frameOf_payload (kind seq : Byte) (b : BitVec 40) : (frameOf kind seq b).payload = b := by
  show b.extractLsb' 32 8 ++ b.extractLsb' 24 8 ++ b.extractLsb' 16 8 ++ b.extractLsb' 8 8 ++ b.extractLsb' 0 8 = b
  rw [BitVec.extractLsb'_append_extractLsb'_eq_extractLsb' (show 32 = 24 + 8 from rfl),
    BitVec.extractLsb'_append_extractLsb'_eq_extractLsb' (show 24 = 16 + 8 from rfl),
    BitVec.extractLsb'_append_extractLsb'_eq_extractLsb' (show 16 = 8 + 8 from rfl),
    BitVec.extractLsb'_append_extractLsb'_eq_extractLsb' (show 8 = 0 + 8 from rfl)]
  exact BitVec.extractLsb'_eq_self

/-- R189: a payload made of fields (highest bit, lowest bit, value), each below the one before it and each wide enough for its value. -/
structure PayloadLaid (b : BitVec 40) (fs : List (Nat × Nat × Nat)) : Prop where
  packed     : b = payloadOf (fs.map Prod.snd)
  fit        : ∀ f ∈ fs, f.2.1 ≤ f.1 ∧ f.1 < 40 ∧ f.2.2 < 2 ^ (f.1 + 1 - f.2.1)
  descending : fs.Pairwise (fun f g => g.1 < f.2.1)

/-- The number that fields make together. -/
def placedSum (fs : List (Nat × Nat × Nat)) : Nat := (fs.map fun f => f.2.2 * 2 ^ f.2.1).sum

theorem payloadOf_eq (fs : List (Nat × Nat × Nat)) : payloadOf (fs.map Prod.snd) = BitVec.ofNat 40 (placedSum fs) := by
  rw [payloadOf, List.map_map]; rfl

theorem placedSum_append (fs gs : List (Nat × Nat × Nat)) : placedSum (fs ++ gs) = placedSum fs + placedSum gs := by
  simp [placedSum]

theorem placedSum_cons (f : Nat × Nat × Nat) (fs : List (Nat × Nat × Nat)) :
    placedSum (f :: fs) = f.2.2 * 2 ^ f.2.1 + placedSum fs := rfl

/-- Fields from bit `n` up make a multiple of its weight. -/
theorem dvd_placedSum {fs : List (Nat × Nat × Nat)} {n : Nat} (h : ∀ f ∈ fs, n ≤ f.2.1) : 2 ^ n ∣ placedSum fs := by
  refine List.dvd_sum fun x hx => ?_
  obtain ⟨f, hf, rfl⟩ := List.mem_map.mp hx
  exact (pow_dvd_pow 2 (h f hf)).mul_left f.2.2

/-- Fields below bit `n`, one below the other, make less than its weight. -/
theorem placedSum_lt {fs : List (Nat × Nat × Nat)} {n : Nat}
    (fit : ∀ f ∈ fs, f.2.1 ≤ f.1 ∧ f.1 < 40 ∧ f.2.2 < 2 ^ (f.1 + 1 - f.2.1))
    (descending : fs.Pairwise (fun f g => g.1 < f.2.1)) (below : ∀ f ∈ fs, f.1 < n) : placedSum fs < 2 ^ n := by
  induction fs generalizing n with
  | nil => exact Nat.two_pow_pos n
  | cons f fs ih =>
    obtain ⟨under, descending⟩ := List.pairwise_cons.mp descending
    obtain ⟨hw, -, hv⟩ := fit f List.mem_cons_self
    have rest : placedSum fs < 2 ^ f.2.1 := ih (fun g hg => fit g (List.mem_cons_of_mem _ hg)) descending under
    calc placedSum (f :: fs) < (f.2.2 + 1) * 2 ^ f.2.1 := by rw [placedSum_cons, add_mul]; omega
      _ ≤ 2 ^ (f.1 + 1 - f.2.1) * 2 ^ f.2.1 := Nat.mul_le_mul_right _ hv
      _ = 2 ^ (f.1 + 1) := by rw [← pow_add]; congr 1; omega
      _ ≤ 2 ^ n := Nat.pow_le_pow_right (by decide) (below f List.mem_cons_self)

theorem slice_ofNat (n : Nat) {hi lo : Nat} (hw : lo ≤ hi) (hb : hi < 40) :
    slice (BitVec.ofNat 40 n) hi lo = n / 2 ^ lo % 2 ^ (hi + 1 - lo) := by
  have cut : 2 ^ 40 = 2 ^ lo * 2 ^ (40 - lo) := by rw [← pow_add]; congr 1; omega
  rw [slice, BitVec.toNat_ofNat, cut, Nat.mod_mul_right_div_self]
  exact Nat.mod_mod_of_dvd _ (pow_dvd_pow 2 (by omega))

/-- The field at a place of the list holds its number. -/
theorem PayloadLaid.slice {b : BitVec 40} {fs : List (Nat × Nat × Nat)} (h : PayloadLaid b fs) (k : Nat) {hi lo v : Nat}
    (hk : fs[k]? = some (hi, lo, v)) : slice b hi lo = v := by
  obtain ⟨before, after, rfl⟩ : ∃ before after, fs = before ++ (hi, lo, v) :: after :=
    List.append_of_mem (List.mem_of_getElem? hk)
  obtain ⟨packed, fit, descending⟩ := h
  obtain ⟨-, descending, above⟩ := List.pairwise_append.mp descending
  obtain ⟨under, descending⟩ := List.pairwise_cons.mp descending
  have ⟨(hw : lo ≤ hi), (hb : hi < 40), (hv : v < 2 ^ (hi + 1 - lo))⟩ := fit (hi, lo, v) (by simp)
  obtain ⟨a, ha⟩ := dvd_placedSum (n := hi + 1) fun f hf => above f hf _ List.mem_cons_self
  have low : placedSum after < 2 ^ lo := placedSum_lt (fun f hf => fit f (by simp [hf])) descending under
  have width : 2 ^ (hi + 1) = 2 ^ lo * 2 ^ (hi + 1 - lo) := by rw [← pow_add]; congr 1; omega
  have sum : placedSum (before ++ (hi, lo, v) :: after) = 2 ^ lo * (2 ^ (hi + 1 - lo) * a + v) + placedSum after := by
    rw [placedSum_append, placedSum_cons, ha, width]
    ring
  rw [packed, payloadOf_eq, slice_ofNat _ hw hb, sum, Nat.mul_add_div (Nat.two_pow_pos lo), Nat.div_eq_of_lt low, Nat.add_zero,
    Nat.mul_add_mod, Nat.mod_eq_of_lt hv]

/-! ### The two report frames -/

theorem errClassOfBits_code (c : ErrClass) : errClassOfBits (Fin.ofNat 4 (errClassBits c)) = c := by cases c <;> rfl

theorem replyResultOfBits_code (r : ReplyResult) : replyResultOfBits (Fin.ofNat 4 (replyResultBits r)) = r := by cases r <;> rfl

theorem replyResultBits_lt (r : ReplyResult) : replyResultBits r < 4 := by cases r <;> decide

/-- R189: the code of the origin of an ERROR frame. -/
def linkOriginBits : LinkOrigin → Nat
  | .demand => 0
  | .controller => 1

theorem linkOriginBits_le (o : LinkOrigin) : linkOriginBits o ≤ 1 := by cases o <;> decide

theorem linkOriginBits_decoded (o : LinkOrigin) : (if linkOriginBits o = 0 then .demand else .controller) = o := by cases o <;> rfl

/-- R189: the code of the class of a SCRUB_REPLY frame. -/
def ceClassBits : CeClass → Nat
  | .bit => 0
  | .symbol => 1

theorem ceClassBits_le (c : CeClass) : ceClassBits c ≤ 1 := by cases c <;> decide

theorem ceClassBits_decoded (c : CeClass) : (if ceClassBits c = 0 then .bit else .symbol) = c := by cases c <;> rfl

/-- R189: the fields of the payload of an ERROR frame. -/
def errorFields (r : ErrorReport) : List (Nat × Nat × Nat) :=
  [(39, 38, errClassBits r.cls), (37, 37, linkOriginBits r.origin),
    (36, 35, r.rank.val), (34, 30, r.bank.val), (29, 12, r.row.val), (11, 2, r.column.val)]

/-- R189: the fields of the payload of a SCRUB_REPLY frame. -/
def replyFields (q : ScrubReply) : List (Nat × Nat × Nat) :=
  [(39, 38, q.tag.val), (37, 30, q.request.toNat), (29, 28, replyResultBits q.result),
    (27, 27, ceClassBits q.cls), (26, 19, q.errorCount.toNat), (18, 9, q.column.val)]

theorem errorFrame_laid (r : ErrorReport) (seq : Byte) : PayloadLaid (errorFrame r seq).payload (errorFields r) where
  packed := frameOf_payload _ _ _
  fit := by
    simpa [errorFields] using ⟨errClassBits_lt r.cls, linkOriginBits_le r.origin⟩
  descending := by simp [errorFields]

theorem replyFrame_laid (q : ScrubReply) (seq : Byte) : PayloadLaid (replyFrame q seq).payload (replyFields q) where
  packed := frameOf_payload _ _ _
  fit := by
    simpa [replyFields] using ⟨q.request.isLt, replyResultBits_lt q.result, ceClassBits_le q.cls, q.errorCount.isLt⟩
  descending := by simp [replyFields]

/-- R103, R189: the frame of an ERROR report arrives as the report. -/
theorem errorFrame_arrival (r : ErrorReport) (seq : Byte) (ch : Chan) : (errorFrame r seq).arrival ch = .error ch seq r := by
  have laid := errorFrame_laid r seq
  have payload : errorPayload (errorFrame r seq).payload = r := by
    rw [errorPayload, laid.slice 0 rfl, laid.slice 1 rfl, laid.slice 2 rfl, laid.slice 3 rfl, laid.slice 4 rfl, laid.slice 5 rfl,
      errClassOfBits_code, linkOriginBits_decoded]
    simp
  exact (Frame.arrival_passing (frameOf_passes _ _ _) ch).trans (congrArg (Instr.error ch seq) payload)

/-- R103, R189: the frame of a scrub reply arrives as the reply. -/
theorem replyFrame_arrival (q : ScrubReply) (seq : Byte) (ch : Chan) : (replyFrame q seq).arrival ch = .scrubReply ch seq q := by
  have laid := replyFrame_laid q seq
  have payload : replyPayload (replyFrame q seq).payload = q := by
    rw [replyPayload, laid.slice 0 rfl, laid.slice 1 rfl, laid.slice 2 rfl, laid.slice 3 rfl, laid.slice 4 rfl, laid.slice 5 rfl,
      replyResultOfBits_code, ceClassBits_decoded]
    simp
  exact (Frame.arrival_passing (frameOf_passes _ _ _) ch).trans (congrArg (Instr.scrubReply ch seq) payload)

/-- Settles O11: the reports by the fields of their payloads, the other kinds by byte 0. -/
theorem upstreamFramesRoundTrip : Obligations.UpstreamFramesRoundTrip := by
  unfold Obligations.UpstreamFramesRoundTrip
  refine ⟨fun ch seq r q wrong => ⟨errorFrame_arrival r seq ch, replyFrame_arrival q seq ch, fun altered => ?_,
    DownFrame.bytes_passes⟩, fun f ch passes => ?_⟩
  · exact Frame.arrival_failing (Frame.set_check_fails (frameOf_passes _ _ _) altered) ch
  · rw [Frame.arrival_passing passes]
    refine ⟨f.meaning_hold ch, f.meaning_resume ch, f.meaning_sync ch,
      fun unknown => f.meaning_unknown ch (upstreamKind_eq_false.mpr unknown), ?_⟩
    rw [← Frame.arrival_passing passes]
    exact f.arrival_wellFormed ch

end Sys2Proof.Machine

/-! The register window, the cycles of the System port and the frames of the Service port (R185 to R187). -/

namespace Sys2Proof.Machine

/-! ### Writes -/

/-- R185: a write to an index without write behaviour. -/
theorem writeAccess_ignored {p : Port} {index : Fin 64} {v : Word} (h : writeIgnored index = true) :
    writeAccess p index v = .registerWriteIgnored p index v := by
  unfold writeAccess
  split
  case h_11 => rfl
  all_goals exact absurd h (by decide)

theorem writeIgnored_of {index : Fin 64} (h : ¬(2 ≤ index.val ∧ index.val ≤ 9)) (clear : index ≠ 17) (mask : index ≠ 18) :
    writeIgnored index = true := by
  revert index; decide

theorem exec_registerWriteIgnored {index : Fin 64} (h : writeIgnored index = true) (p : Port) (v : Word) (s : State) :
    exec (.registerWriteIgnored p index v) s = .next s := if_pos h

/-! ### Numbers bit by bit -/

theorem numberOf_snoc (bits : List Bool) (b : Bool) : numberOf (bits ++ [b]) = 2 * numberOf bits + b.toNat := by
  simp [numberOf]

/-- R187: the bits of a number, most significant first, are the number. -/
theorem numberOf_testBits (x n : Nat) : numberOf ((List.range n).map fun k => x.testBit (n - 1 - k)) = x % 2 ^ n := by
  induction n generalizing x with
  | zero => simp [numberOf, Nat.mod_one]
  | succ n ih =>
    have higher : (List.range n).map (fun k => x.testBit (n + 1 - 1 - k)) =
        (List.range n).map fun k => (x / 2).testBit (n - 1 - k) := by
      refine List.map_congr_left fun k hk => ?_
      have := List.mem_range.mp hk
      rw [Nat.testBit_div_two]
      congr 1
      omega
    rw [List.range_succ, List.map_append, higher, List.map_singleton, numberOf_snoc, ih, Nat.add_sub_cancel, Nat.sub_self,
      pow_succ', Nat.mod_mul, Nat.testBit_zero, Nat.add_comm]
    rcases Nat.mod_two_eq_zero_or_one x with h | h <;> simp [h]

/-- R187: the first byte of a frame: the direction, a bit that is ignored and the index. -/
def firstByte (read bit6 : Bool) (index : Fin 64) : List Bool :=
  [read, bit6] ++ (List.range 6).map fun k => index.val.testBit (5 - k)

theorem firstByte_length (read bit6 : Bool) (index : Fin 64) : (firstByte read bit6 index).length = 8 := rfl

theorem spiIndex_firstByte (read bit6 : Bool) (index : Fin 64) (rest : List Bool) :
    spiIndex (firstByte read bit6 index ++ rest) = index := by
  have bits : ((firstByte read bit6 index ++ rest).take 8).drop 2 = (List.range 6).map fun k => index.val.testBit (6 - 1 - k) := by
    rw [List.take_left' (firstByte_length ..)]
    rfl
  rw [spiIndex, bits, numberOf_testBits, Nat.mod_eq_of_lt (show index.val < 2 ^ 6 from index.isLt)]
  exact Fin.ofNat_val_eq_self index

/-- R187: the 32 data bits after the first byte. -/
theorem spiData_firstByte (read bit6 : Bool) (index : Fin 64) (v : Word) (rest : List Bool) :
    spiData (firstByte read bit6 index ++ (List.range 32).map (fun k => v.getLsbD (31 - k)) ++ rest) = v := by
  have bits : ((firstByte read bit6 index ++ (List.range 32).map (fun k => v.getLsbD (31 - k)) ++ rest).take 40).drop 8 =
      (List.range 32).map fun k => v.toNat.testBit (32 - 1 - k) := by
    rw [List.take_left' (by simp [firstByte_length]), List.drop_left' (firstByte_length ..)]
    rfl
  rw [spiData, bits, numberOf_testBits, Nat.mod_eq_of_lt v.isLt, BitVec.ofNat_toNat, BitVec.setWidth_eq]

/-! ### Frames of the Service port -/

theorem spiCommand_short {bits : List Bool} (h : bits.length < 40) : spiCommand bits = none := if_pos h

/-- R187: a write frame. -/
theorem spiCommand_write (bit6 : Bool) (index : Fin 64) (v : Word) (rest : List Bool) :
    spiCommand (firstByte false bit6 index ++ (List.range 32).map (fun k => v.getLsbD (31 - k)) ++ rest) =
      some (writeAccess .service index v) := by
  have long : ¬(firstByte false bit6 index ++ (List.range 32).map (fun k => v.getLsbD (31 - k)) ++ rest).length < 40 := by
    simp [firstByte_length]
    omega
  rw [spiCommand, if_neg long, spiData_firstByte, List.append_assoc, spiIndex_firstByte]
  rfl

/-- R187: a read frame. -/
theorem spiCommand_read (bit6 : Bool) (index : Fin 64) {rest : List Bool} (h : 32 ≤ rest.length) :
    spiCommand (firstByte true bit6 index ++ rest) = if index = 10 then some (.result0Read .service true) else none := by
  have long : ¬(firstByte true bit6 index ++ rest).length < 40 := by
    simp [firstByte_length]
    omega
  rw [spiCommand, if_neg long, spiIndex_firstByte]
  rfl

theorem spiOut_getElem? (s : State) (free : Nat → Bool) {bits : List Bool} {k : Nat} (h : k < bits.length) :
    (spiOut s free bits)[k]? = some (if 8 ≤ k ∧ k < 40 then
      if bits.getD 0 false && !s.rst then (s.readRegister .service (spiIndex bits).val).getLsbD (39 - k) else free k
      else false) := by
  simp [spiOut, h]

/-- R187: the levels of SDO in a read frame. -/
theorem spiOut_read {s : State} (hr : s.rst = false) (free : Nat → Bool) (bit6 : Bool) (index : Fin 64) (rest : List Bool) {k : Nat}
    (h : k < (firstByte true bit6 index ++ rest).length) : (spiOut s free (firstByte true bit6 index ++ rest))[k]? =
      some (if 8 ≤ k ∧ k < 40 then (s.readRegister .service index.val).getLsbD (39 - k) else false) := by
  rw [spiOut_getElem? s free h, spiIndex_firstByte, hr]
  rfl

/-- R187: SDO is low outside the data bytes. -/
theorem spiOut_low (s : State) (free : Nat → Bool) {bits : List Bool} {k : Nat} (h : k < bits.length) (outside : k < 8 ∨ 40 ≤ k) :
    (spiOut s free bits)[k]? = some false := by
  rw [spiOut_getElem? s free h, if_neg (by omega)]

/-! ### Cycles of the System port -/

section
variable {c : SystemCycle}

/-- R186: a cycle with both strobes makes no access. -/
theorem SystemCycle.command_both (h : c.read = c.write) : c.command = none := by
  unfold SystemCycle.command
  cases hw : c.write <;> rw [h, hw]

theorem SystemCycle.held_eq (c : SystemCycle) : c.held = decide (c.select.getLast? = some true) := by
  rw [Bool.eq_iff_iff, decide_eq_true_eq]
  exact beq_iff_eq

/-- R186: a write is taken when CS_N is asserted at the rise of its strobe. -/
theorem SystemCycle.command_write (read : c.read = false) (write : c.write = true) : c.command =
    if decide (c.select.getLast? = some true) = true then some (writeAccess .system c.index c.data) else none := by
  rw [← c.held_eq, SystemCycle.command, read, write]

/-- R186: of the reads only one of RESULT0 is a command. -/
theorem SystemCycle.command_read (read : c.read = true) (write : c.write = false) : c.command =
    if c.index = 10 ∧ true ∈ c.select then some (.result0Read .system (decide (c.select.getLast? = some true))) else none := by
  have selected : c.select.any id = true ↔ true ∈ c.select := by simp
  rw [← c.held_eq, SystemCycle.command, read, write]
  simp only [selected, readAccess, ← ite_and, and_comm]

theorem SystemCycle.driven_idle (h : c.read = false ∨ c.write = true) (s : State) : ∀ x ∈ c.driven s, x = none := by
  intro x hx
  obtain ⟨asserted, -, rfl⟩ := List.mem_map.mp hx
  rcases h with h | h <;> simp [h]

theorem SystemCycle.driven_read (read : c.read = true) (write : c.write = false) (s : State) : c.driven s =
    c.select.map fun asserted => if asserted = true ∧ s.rst = false then some (s.readRegister .system c.index.val) else none := by
  simp [SystemCycle.driven, read, write]

end

/-! ### The value of each register -/

theorem MailState.code_lt (m : MailState) : m.code < 4 := by cases m <;> decide

theorem ResultCode.code_lt (r : ResultCode) : r.code < 16 := by cases r <;> decide

theorem LinkState.code_lt (l : LinkState) : l.code < 4 := by cases l <;> decide

theorem Authority.code_lt (a : Authority) : a.code < 4 := by cases a <;> decide

theorem identification_eq : identification = 0x0C080001 := by decide

/-- R185: the mailbox status register. -/
theorem Mailbox.status_fields (m : Mailbox) :
    field m.status 1 0 = m.state.code ∧ m.status.getLsbD 2 = m.collision ∧ m.status.getLsbD 3 = false ∧
    field m.status 7 4 = m.code.code ∧ field m.status 9 8 = m.page.val ∧ field m.status 31 10 = 0 := by
  have laid : Laid m.status _ := ⟨rfl, by simp [flagBit]⟩
  exact ⟨laid.field 0 rfl (by decide) m.state.code_lt, laid.bit 1 rfl (by decide), laid.unnamed_bit (by simp [flagBit, Apart]),
    laid.field 2 rfl (by decide) m.code.code_lt, laid.field 3 rfl (by decide) m.page.isLt, laid.unnamed (by simp [flagBit, Apart])⟩

section
variable (s : State)

/-- R107, R185: the link summary. -/
theorem State.linkSummary_fields :
    (∀ ch : Chan, field s.linkSummary (2 * ch.val + 1) (2 * ch.val) = (s.link ch).state.code) ∧ field s.linkSummary 31 16 = 0 := by
  have ascending : ((List.finRange 8).map fun ch => (2 * ch.val + 1, 2 * ch.val, (s.link ch).state.code)).Pairwise
      (fun f g => f.1 < g.2.1) := by
    refine List.pairwise_map.mpr ((List.pairwise_lt_finRange 8).imp fun {a b} hab => ?_)
    have := Fin.lt_def.mp hab
    show 2 * a.val + 1 < 2 * b.val
    omega
  have laid : Laid s.linkSummary _ := ⟨rfl, ascending⟩
  refine ⟨fun ch => laid.field ch.val (by simp) (by omega) ?_, laid.unnamed fun f hf => ?_⟩
  · rw [show 2 * ch.val + 1 + 1 - 2 * ch.val = 2 by omega]
    exact (s.link ch).state.code_lt
  · obtain ⟨ch, -, rfl⟩ := List.mem_map.mp hf
    exact .inr (show 2 * ch.val + 1 < 16 by omega)

theorem Cet.pinnedCount_eq : s.cet.pinnedCount = (List.finRange 128).countP fun i => (s.entry i).any CetEntry.pinned := by
  rw [Cet.pinnedCount, Table.count_eq]
  refine congrArg (List.countP · _) (funext fun i => ?_)
  show ((s.entry i).map CetEntry.pinned).getD false = _
  cases s.entry i <;> rfl

/-- R14, R185: the CET summary. -/
theorem State.cetSummary_fields :
    field s.cetSummary 7 0 = s.cet.occupancy ∧ field s.cetSummary 14 8 = s.cet.pinnedCount % 128 ∧
    s.cetSummary.getLsbD 15 = false ∧ field s.cetSummary 31 16 = s.cet.generation.toNat := by
  have laid : Laid s.cetSummary _ := ⟨rfl, by simp⟩
  exact ⟨laid.field 0 rfl (by decide) (lt_of_le_of_lt (Table.count_le _ _) (by decide)), laid.field_mod 1 rfl (by decide),
    laid.unnamed_bit (by simp [Apart]), laid.field 2 rfl (by decide) s.cet.generation.isLt⟩

/-- R73, R185: the UEL summary. -/
theorem State.uelSummary_fields :
    field s.uelSummary 4 0 = s.uel.records.length % 32 ∧ field s.uelSummary 7 5 = 0 ∧
    field s.uelSummary 15 8 = (s.uel.records.head?.map fun r => r.id.toNat).getD 0 ∧
    field s.uelSummary 20 16 = s.uel.countIn .opened % 32 ∧ field s.uelSummary 25 21 = s.uel.countIn .handedOver % 32 ∧
    field s.uelSummary 30 26 = s.uel.countIn .escalated % 32 ∧ s.uelSummary.getLsbD 31 = false := by
  have laid : Laid s.uelSummary _ := ⟨rfl, by simp⟩
  have oldest : (s.uel.records.head?.map fun r => r.id.toNat).getD 0 < 256 := by
    cases s.uel.records with
    | nil => decide
    | cons r _ => exact r.id.isLt
  exact ⟨laid.field_mod 0 rfl (by decide), laid.unnamed (by simp [Apart]), laid.field 1 rfl (by decide) oldest,
    laid.field_mod 2 rfl (by decide), laid.field_mod 3 rfl (by decide), laid.field_mod 4 rfl (by decide),
    laid.unnamed_bit (by simp [Apart])⟩

theorem RetireList.countIn_eq (st : RetState) :
    s.retire.countIn st = (List.finRange 32).countP fun i => (s.retired i).any fun a => decide (a.state = st) := by
  rw [RetireList.countIn, Table.count_eq]
  refine congrArg (List.countP · _) (funext fun i => ?_)
  show ((s.retired i).map RetEntry.state == some st) = _
  cases s.retired i <;> rfl

/-- R43, R185: the retirement summary. -/
theorem State.retireSummary_fields :
    field s.retireSummary 5 0 = s.retire.countIn .proposed ∧ field s.retireSummary 13 8 = s.retire.countIn .confirmed ∧
    field s.retireSummary 7 6 = 0 ∧ field s.retireSummary 31 14 = 0 := by
  have laid : Laid s.retireSummary _ := ⟨rfl, by simp⟩
  have fits (st : RetState) : s.retire.countIn st < 2 ^ 6 := lt_of_le_of_lt (Table.count_le _ _) (by decide)
  exact ⟨laid.field 0 rfl (by decide) (fits _), laid.field 1 rfl (by decide) (fits _), laid.unnamed (by simp [Apart]),
    laid.unnamed (by simp [Apart])⟩

/-- R52, R173, R185: the authority register. -/
theorem State.authorityWord_fields :
    field s.authorityWord 1 0 = s.engine.authority.code ∧ s.authorityWord.getLsbD 8 = s.engine.serviceFirst ∧
    field s.authorityWord 7 2 = 0 ∧ field s.authorityWord 31 9 = 0 := by
  have laid : Laid s.authorityWord _ := ⟨rfl, by simp [flagBit]⟩
  exact ⟨laid.field 0 rfl (by decide) s.engine.authority.code_lt, laid.bit 1 rfl (by decide),
    laid.unnamed (by simp [flagBit, Apart]), laid.unnamed (by simp [flagBit, Apart])⟩

/-- R183, R185: the FATAL status register. -/
theorem State.fatalWord_fields :
    s.fatalWord.getLsbD 0 = s.events.fatalLatch ∧ s.fatalWord.getLsbD 1 = s.events.escalationCause ∧
    s.fatalWord.getLsbD 2 = s.events.overflowCause ∧ field s.fatalWord 31 3 = 0 := by
  have laid : Laid s.fatalWord _ := ⟨rfl, by simp [flagBit]⟩
  exact ⟨laid.bit 0 rfl (by decide), laid.bit 1 rfl (by decide), laid.bit 2 rfl (by decide),
    laid.unnamed (by simp [flagBit, Apart])⟩

variable (p : Port)

theorem State.readRegister_param (k : Fin 6) : s.readRegister p (4 + k.val) = (s.mail p).params.get k := by
  fin_cases k <;> rfl

theorem State.readRegister_result (k : Fin 6) : s.readRegister p (10 + k.val) = (s.mail p).resultWord k := by
  fin_cases k <;> rfl

/-- R178, R185: EVENT_STATUS. -/
theorem State.readRegister_events (n : Nat) :
    (s.readRegister p 16).getLsbD n = (decide (n < 17) && s.events.flags.getLsbD n) := by
  show (s.events.flags.setWidth 32).getLsbD n = _
  rw [BitVec.getLsbD_setWidth]
  by_cases h : n < 17
  · rw [decide_eq_true h, decide_eq_true (show n < 32 by omega)]
  · rw [BitVec.getLsbD_of_ge _ _ (by omega), Bool.and_false, Bool.and_false]

/-- R185: the indices above the summaries, but for the two of the Service port. -/
theorem State.readRegister_unnamed {n : Nat} (h : 23 ≤ n) (authority : n ≠ 48) (fatal : n ≠ 49) : s.readRegister p n = 0 := by
  unfold State.readRegister
  split
  case h_26 => rfl
  all_goals omega

end

/-- Settles O10: the writes by their index, the registers by the places of their fields, the cycles by their strobes and the frames
by their first byte. -/
theorem portAccesses : Obligations.PortAccesses := by
  unfold Obligations.PortAccesses
  refine ⟨fun p index v s named clear mask => ?_, fun bit6 index v rest bits => ⟨spiCommand_write bit6 index v rest, spiCommand_short⟩,
    ⟨rfl, rfl, rfl, rfl⟩, fun p s => ?_, fun s => ?_, fun c s => ?_, fun bit6 index rest bits s free => ?_⟩
  · have ignored := writeIgnored_of named clear mask
    exact ⟨writeAccess_ignored ignored, exec_registerWriteIgnored ignored p v s⟩
  · obtain ⟨state, collision, unnamed3, code, page, unnamed31⟩ := (s.mail p).status_fields
    obtain ⟨links, noLink⟩ := s.linkSummary_fields
    obtain ⟨occupancy, pinned, unnamed15, generation⟩ := s.cetSummary_fields
    obtain ⟨held, unnamed7, oldest, opened, handedOver, escalated, unnamedTop⟩ := s.uelSummary_fields
    obtain ⟨proposed, confirmed, unnamedLow, unnamedHigh⟩ := s.retireSummary_fields
    refine ⟨identification_eq, rfl, state, collision, unnamed3, code, page, unnamed31, rfl,
      fun k => ⟨s.readRegister_param p k, (s.readRegister_result p k).trans ((s.mail p).resultWord_eq k)⟩, s.readRegister_events p,
      links, noLink, occupancy.trans (Cet.occupancy_eq s), pinned.trans (congrArg (· % 128) (Cet.pinnedCount_eq s)), unnamed15,
      generation, held, unnamed7, oldest.trans ?_, opened, handedOver, escalated, unnamedTop,
      proposed.trans (RetireList.countIn_eq s _), confirmed.trans (RetireList.countIn_eq s _), unnamedLow, unnamedHigh,
      fun n => s.readRegister_unnamed p⟩
    cases s.uel.records <;> rfl
  · obtain ⟨authority, serviceFirst, unnamed7, unnamed31⟩ := s.authorityWord_fields
    exact ⟨rfl, rfl, authority, serviceFirst, unnamed7, unnamed31, s.fatalWord_fields⟩
  · exact ⟨SystemCycle.command_both, fun idle => SystemCycle.driven_idle idle s, SystemCycle.command_write,
      fun read write => ⟨SystemCycle.command_read read write, SystemCycle.driven_read read write s⟩⟩
  · exact ⟨spiCommand_read bit6 index, fun hr k hk => spiOut_read hr free bit6 index rest hk, fun k => spiOut_low s free⟩

end Sys2Proof.Machine

/-! A step of the queue, the timers under the two bases, frames in ACTIVE by their distance, and ACK_UE (R1, R11, R12, R65, R67, R76,
R77, R115 to R118). -/

namespace Sys2Proof.Machine

/-- Settles O1: the command put at the front is the one that the step takes, with the queue as it was behind it. -/
theorem stepTakesFrontCommand : Obligations.StepTakesFrontCommand := by
  unfold Obligations.StepTakesFrontCommand
  exact fun _ _ => rfl

/-! ### Ticks and event clock advances -/

section
variable {s : State}

/-- R12: the state that a tick leaves. -/
def State.ticked (s : State) : State :=
  (s.setScrubs (s.scrubs.map Scrub.lowerPacing)).setClock { s.clock with ticks := s.clock.ticks + 1 }

/-- R11, R12: the state that an advance of the event clock leaves. -/
def State.advanced (s : State) : State := s.lowerMs.setClock ⟨s.clock.time + 1, s.clock.ticks - 100⟩

theorem State.ticked_scrub (ch : Chan) : s.ticked.scrub ch = (s.scrub ch).lowerPacing := Table.get_map s.scrubs _ ch

theorem State.advanced_link (ch : Chan) : s.advanced.link ch = (s.link ch).lowerMs := Table.get_map s.links _ ch

theorem State.advanced_scrub (ch : Chan) : s.advanced.scrub ch = (s.scrub ch).lowerMs := Table.get_map s.scrubs _ ch

theorem exec_pacingBaseTick (hr : s.rst = false) : exec .pacingBaseTick s = .next s.ticked :=
  State.whileRunning_running hr State.ticked

theorem exec_eventClockAdvance (hr : s.rst = false) :
    exec .eventClockAdvance s = .next (if 100 ≤ s.clock.ticks then s.advanced else s) :=
  State.whileRunning_running hr fun s => if 100 ≤ s.clock.ticks then s.advanced else s

end

/-- Settles O6: each timer by the place of its block in the state that the tick or the advance leaves. -/
theorem ticksLowerTimers : Obligations.TicksLowerTimers := by
  unfold Obligations.TicksLowerTimers
  refine ⟨fun s hr => ⟨_, exec_pacingBaseTick hr, rfl, fun ch => State.ticked_scrub ch⟩, fun s hr => ?_⟩
  rw [exec_eventClockAdvance hr]
  refine ⟨fun h => ⟨s.advanced, by rw [if_pos h], rfl, fun ch => State.advanced_link ch, fun ch => ?_, fun ch tag => ?_⟩,
    fun h => by rw [if_neg (not_le.mpr h)]⟩
  · rw [State.advanced_scrub]; rfl
  · rw [State.advanced_scrub]; exact Table.get_map _ _ tag

/-! ### Frames in ACTIVE -/

section
variable {s : State} {ch : Chan} {seq : BitVec 8} {onward : State → State}

theorem State.modLink_modLink (s : State) (ch : Chan) (f g : Link → Link) :
    (s.modLink ch f).modLink ch g = s.modLink ch (fun l => g (f l)) :=
  congrArg s.setLinks (s.links.modify_modify ch f g)

/-- R115, R116: the number of a frame taken, and the frame counted by its kind. -/
theorem State.heard_modCounters (f : LinkCounters → LinkCounters) : (s.heard ch seq).modCounters ch f =
    (s.modLink ch (fun l =>
      let heard := l.heard seq (seq - (s.link ch).expected).toNat
      { heard with counters := f heard.counters })).setEvents (s.events.heard (seq - (s.link ch).expected).toNat) :=
  congrArg (State.setEvents · _)
    (s.modLink_modLink ch (·.heard seq (seq - (s.link ch).expected).toNat) fun l => { l with counters := f l.counters })

variable {f : Link → Link} {e : EventUnit} (x : Report)

/-- R117: with a credit outstanding the report joins the tail of the queue. -/
theorem State.joinQueue_credit (h : 1 ≤ (f (s.link ch)).outstanding) :
    ((s.modLink ch f).setEvents e).joinQueue ch x =
      ((s.modLink ch (fun l => { f l with outstanding := (f l).outstanding - 1 })).setQueues
        (s.queues.modify ch (fun w => w ++ [x]))).setEvents e := by
  have link : ((s.modLink ch f).setEvents e).link ch = f (s.link ch) := Table.get_modify_self _ _ _
  rw [State.joinQueue, link, if_pos h, ← s.modLink_modLink ch f fun l => { l with outstanding := l.outstanding - 1 }]
  rfl

/-- R118: without one it is a credit violation. -/
theorem State.joinQueue_violation (h : (f (s.link ch)).outstanding = 0) :
    ((s.modLink ch f).setEvents e).joinQueue ch x =
      (s.modLink ch (fun l => { f l with counters :=
        { (f l).counters with creditViolations := satInc (f l).counters.creditViolations } })).setEvents
          { e with flags := e.flags ||| EventFlag.creditViolation.mask } := by
  have link : ((s.modLink ch f).setEvents e).link ch = f (s.link ch) := Table.get_modify_self _ _ _
  rw [State.joinQueue, link, if_neg (by omega), ← s.modLink_modLink ch f fun l =>
    { l with counters := { l.counters with creditViolations := satInc l.counters.creditViolations } }]
  rfl

/-- R115: a frame that is no SYNC, of distance 128 to 255. -/
theorem State.arrive_duplicate (hs : (s.link ch).state = .active) (h : 128 ≤ (seq - (s.link ch).expected).toNat) :
    s.arrive ch seq onward = { s with links := s.links.modify ch (fun l =>
      { l with checkFailures := 0, counters := { l.counters with duplicates := satInc l.counters.duplicates } }) } := by
  have distance : seqClass (s.link ch).expected seq = .duplicate := by
    simp only [seqClass]
    rw [if_neg (by omega), if_neg (by omega)]
  simp only [State.arrive, hs, State.arriveActive, distance]
  exact s.modLink_modLink ch (fun l => { l with checkFailures := 0 })
    (fun l => { l with counters := { l.counters with duplicates := satInc l.counters.duplicates } })

variable (hr : s.rst = false)
include hr

/-- R117: an ERROR or SCRUB_REPLY frame in ACTIVE of distance 0 to 127 is accepted and its report given to the queue. -/
theorem exec_report (hs : (s.link ch).state = .active) (h : s.passesSeq ch seq) {i : Instr} {x : Report} {t : State}
    (hi : exec i s = s.whileRunning fun s => s.arrive ch seq fun t => (t.accept ch).joinQueue ch x)
    (ht : ((s.heard ch seq).accept ch).joinQueue ch x = t) : exec i s = .next t := by
  rw [hi, State.whileRunning_running hr, State.arrive_passes hs h, ht]

/-- R116: a frame of unknown kind in ACTIVE of distance 0 to 127. -/
theorem exec_unknownKindFrame (hs : (s.link ch).state = .active) (h : s.passesSeq ch seq) {kind : Byte}
    (hk : upstreamKind kind = false) : exec (.unknownKindFrame ch seq kind) s =
      .next ((s.heard ch seq).modCounters ch fun c => { c with malformed := satInc c.malformed }) := by
  have arrives : exec (.unknownKindFrame ch seq kind) s = s.whileRunning fun s => s.arrive ch seq fun t =>
      t.modCounters ch fun c => { c with malformed := satInc c.malformed } := if_neg (by simp [hk])
  rw [arrives, State.whileRunning_running hr, State.arrive_passes hs h]

end

/-- Settles O23: by the distance, and for a report by the credits of the link. -/
theorem sequenceTestInActive : Obligations.SequenceTestInActive := by
  unfold Obligations.SequenceTestInActive
  refine ⟨fun ch seq r q s hr hs hp => ?_, fun ch seq kind r q s hr hs hk => ?_⟩
  · intro d joined violated
    have joins (h : 1 ≤ (s.link ch).outstanding) (x : Report) : ((s.heard ch seq).accept ch).joinQueue ch x = joined x := by
      rw [State.accept, State.heard_modCounters, State.joinQueue_credit x h]; rfl
    have violates (h : (s.link ch).outstanding = 0) (x : Report) : ((s.heard ch seq).accept ch).joinQueue ch x = violated := by
      rw [State.accept, State.heard_modCounters, State.joinQueue_violation x h]; rfl
    exact ⟨fun h => ⟨exec_report hr hs hp rfl (joins h _), exec_report hr hs hp rfl (joins h _)⟩,
      fun h => ⟨exec_report hr hs hp rfl (violates h _), exec_report hr hs hp rfl (violates h _)⟩⟩
  · intro d duplicate
    refine ⟨fun hd => ?_, fun hd => ?_⟩
    · rw [exec_unknownKindFrame hr hs hd hk]
      exact congrArg _ (State.heard_modCounters _)
    · have discards := exec_frames_arrive hr hk r q (t := duplicate) fun _ => State.arrive_duplicate hs hd
      simp only [List.forall_mem_cons] at discards
      obtain ⟨error, reply, hold, resume, unknown, -⟩ := discards
      exact ⟨unknown, error, reply, hold, resume⟩

/-! ### ACK_UE -/

theorem AckState.mayAck_iff {a : AckState} {p : Port} : a.mayAck p = true ↔ p = .system ∨ a ≠ .opened := by
  cases p <;> simp [AckState.mayAck]

section
variable {s : State} {p : Port} (h : s.Takes p 49)
include h

/-- R76: a refusal of ACK_UE by its body. -/
theorem State.Takes.ackUe_refused {code : ResultCode}
    (hb : bodyAckUe p (s.mail p).params (s.latch p) = (s.latch p, refusal code)) :
    exec .ackUe s = .next (s.withRefusal p code) := by
  refine (h.run_any bodyAckUe).trans (congrArg _ ?_)
  rw [hb]
  exact s.answered_latch p _ _

theorem State.Takes.ackUe_beyond (hid : 255 < field (s.param p 0) 15 0) :
    exec .ackUe s = .next (s.withRefusal p .badParam) :=
  h.ackUe_refused (if_pos hid)

theorem State.Takes.ackUe_absent (hid : field (s.param p 0) 15 0 ≤ 255)
    (hn : ∀ r ∈ s.uel.records, r.id.toNat ≠ field (s.param p 0) 15 0) : exec .ackUe s = .next (s.withRefusal p .notFound) := by
  have absent : (s.latch p).findUe (indexParam ((s.mail p).params.get 0)) = none := by
    rw [State.findUe, s.latch_uel]; exact State.findUe_eq_none hn
  refine h.ackUe_refused ((if_neg (not_lt.mpr hid)).trans ?_)
  rw [absent]

section
variable {before after : List UeRecord} {r : UeRecord} (hr : s.uel.records = before ++ r :: after)
  (hid : r.id.toNat = field (s.param p 0) 15 0) (hb : ∀ x ∈ before, x.id.toNat ≠ field (s.param p 0) 15 0)
include hr hid hb

omit h in
/-- R76: on the oldest record with the id the port decides. -/
theorem bodyAckUe_held : bodyAckUe p (s.mail p).params (s.latch p) =
    if r.ack.mayAck p then
      ((s.latch p).removeUe before.length,
        okWords [num (field (s.param p 0) 15 0), num r.ack.code, num (before.length + after.length)])
    else (s.latch p, refusal .notPermitted) := by
  have held : (s.latch p).findUe (indexParam ((s.mail p).params.get 0)) = some before.length := by
    rw [State.findUe, s.latch_uel]; exact State.findUe_eq_some hr hid hb
  have record : (s.latch p).ueAt before.length = some r := by simp [State.ueAt, s.latch_uel, hr]
  have count : (s.latch p).uel.records.length - 1 = before.length + after.length := by simp [s.latch_uel, hr]
  have small : ¬255 < indexParam ((s.mail p).params.get 0) := by
    have := r.id.isLt
    rw [hid] at this
    exact not_lt.mpr (Nat.le_of_lt_succ this)
  simp only [bodyAckUe, if_neg small, held, record, count]
  rfl

/-- R77: the record leaves and the later ones move forward. -/
theorem State.Takes.ackUe_removes (hm : r.ack.mayAck p = true) : exec .ackUe s = .next
    (({ s with uel := { s.uel with records := before ++ after } } : State).withOk p
      [num (field (s.param p 0) 15 0), num r.ack.code, num (before.length + after.length)]) := by
  refine (h.run_any bodyAckUe).trans (congrArg _ ?_)
  have removed : s.uel.records.eraseIdx before.length = before ++ after := by simp [hr, List.eraseIdx_append_of_length_le]
  rw [bodyAckUe_held hr hid hb, if_pos hm, State.removeUe, s.latch_uel, removed]
  cases p <;> rfl

end

end

/-- Settles O52: by the id, the oldest record that carries it, and the port. -/
theorem ackRemovesOldestWithId : Obligations.AckRemovesOldestWithId := by
  unfold Obligations.AckRemovesOldestWithId
  intro p s h id
  refine ⟨h.ackUe_beyond, h.ackUe_absent, fun before r after hr hid hb => ⟨fun hm => ?_, fun hp ha => ?_⟩⟩
  · exact h.ackUe_removes hr hid hb (AckState.mayAck_iff.mpr hm)
  · refine h.ackUe_refused ((bodyAckUe_held hr hid hb).trans (if_neg ?_))
    rw [AckState.mayAck_iff]
    simp [hp, ha]

end Sys2Proof.Machine

/-! What every command does to the commands behind it: they keep waiting (R1). -/

namespace Sys2Proof.Machine

/-! ### The operations of the blocks keep the queue of commands -/

section
variable (s : State)

/-! The CET, the retirement list and the verify queue. -/

@[simp] theorem State.takeCe_pending (r : CeRecord) : (s.takeCe r).pending = s.pending := (s.takeCe_tables r).pending

@[simp] theorem State.propose_pending (r : Range) (ev : Evidence) : (s.propose r ev).1.pending = s.pending :=
  (s.propose_tables r ev).pending

@[simp] theorem State.endRead_pending (ch : Chan) (tag : Tag) (number : BitVec 8) (r : Option ReadResult) :
    (s.endRead ch tag number r).pending = s.pending := (s.endRead_tables ch tag number r).pending

@[simp] theorem State.abortJob_pending (r : AbortReason) (i : CetIdx) : (s.abortJob r i).pending = s.pending :=
  (s.abortJob_tables r i).pending

@[simp] theorem State.abortRunningOn_pending (ch : Chan) : (s.abortRunningOn ch).pending = s.pending :=
  (s.abortRunningOn_tables ch).pending

@[simp] theorem State.freeEntry_pending (i : CetIdx) (r : Option AbortReason) : (s.freeEntry i r).pending = s.pending :=
  (s.freeEntry_tables i r).pending

@[simp] theorem State.freeAll_pending (is : List CetIdx) (r : Option AbortReason) : (s.freeAll is r).pending = s.pending :=
  (s.freeAll_tables is r).pending

@[simp] theorem State.createJob_pending (i : CetIdx) (ch : Chan) : (s.createJob i ch).pending = s.pending :=
  (s.createJob_tables i ch).pending

@[simp] theorem State.leakTable_pending : s.leakTable.pending = s.pending := s.leakTable_tables.pending

/-! The links and the transmitters. -/

variable (ch : Chan)

@[simp] theorem State.sendCredit_pending (n : Nat) : (s.sendCredit ch n).pending = s.pending := by
  unfold State.sendCredit; split <;> rfl

@[simp] theorem State.modCounters_pending (f : LinkCounters → LinkCounters) : (s.modCounters ch f).pending = s.pending := rfl

@[simp] theorem State.setLinkState_pending (st : LinkState) : (s.setLinkState ch st).pending = s.pending := rfl

@[simp] theorem State.abandonRequests_pending (r : Option ReadResult) : (s.abandonRequests ch r).pending = s.pending :=
  (s.abandonRequests_tables ch r).pending

@[simp] theorem State.departActive_pending (st : LinkState) : (s.departActive ch st).pending = s.pending := by
  simp [State.departActive]

@[simp] theorem State.failLink_pending : (s.failLink ch).pending = s.pending := s.departActive_pending ch .failed

@[simp] theorem State.enterSyncing_pending : (s.enterSyncing ch).pending = s.pending := by
  unfold State.enterSyncing; dsimp only; split <;> simp

@[simp] theorem State.goDown_pending : (s.goDown ch).pending = s.pending := by simp [State.goDown]

@[simp] theorem State.discardQueue_pending : (s.discardQueue ch).pending = s.pending := rfl

@[simp] theorem State.attemptExpiry_pending : (s.attemptExpiry ch).pending = s.pending := by
  unfold State.attemptExpiry; split <;> rfl

@[simp] theorem State.arriveSync_pending (seq : BitVec 8) : (s.arriveSync ch seq).pending = s.pending := by
  unfold State.arriveSync
  split
  · rfl
  · simp [State.syncInSyncing]
  · rfl
  · simp [State.syncInActive]

@[simp] theorem State.arriveFailing_pending : (s.arriveFailing ch).pending = s.pending := by
  unfold State.arriveFailing
  dsimp only
  split
  · rfl
  · rfl
  · rfl
  · split <;> simp

/-- A frame keeps the queue of commands where what its kind does onward keeps it. -/
theorem State.arrive_pending (seq : BitVec 8) {onward : State → State} (h : ∀ t, (onward t).pending = t.pending) :
    (s.arrive ch seq onward).pending = s.pending := by
  unfold State.arrive
  split
  · rfl
  · rfl
  · rfl
  · unfold State.arriveActive
    dsimp only
    split
    · exact h _
    · exact h _
    · rfl

theorem State.joinQueue_pending (r : Report) : (s.joinQueue ch r).pending = s.pending := by
  unfold State.joinQueue; split <;> rfl

@[simp] theorem State.returnCredit_pending : (s.returnCredit ch).pending = s.pending := by
  unfold State.returnCredit
  split
  · dsimp only; split <;> simp
  · rfl

/-! The scrub engine. -/

@[simp] theorem State.countSkipped_pending : (s.countSkipped ch).pending = s.pending := rfl

@[simp] theorem State.freeTag_pending (tag : Tag) : (s.freeTag ch tag).pending = s.pending := rfl

theorem State.patrolStep_pending (tag : Tag) : (s.patrolStep ch tag).pending = s.pending := by
  unfold State.patrolStep
  dsimp only
  split <;> split <;> rfl

theorem State.verifyStep_pending (tag : Tag) (j : Job) : (s.verifyStep ch tag j).pending = s.pending := by
  unfold State.verifyStep
  split
  · rfl
  · split
    · exact s.abortJob_pending .retired j.cet
    · rfl

theorem State.issue_pending : (s.issue ch).pending = s.pending := by
  unfold State.issue
  split
  · split
    · rfl
    · split
      · exact s.verifyStep_pending ch _ _
      · split
        · exact s.patrolStep_pending ch _
        · rfl
  · rfl

theorem State.replyExpiry_pending (tag : Tag) (q : Request) : (s.replyExpiry ch tag q).pending = s.pending := by
  unfold State.replyExpiry
  dsimp only
  split <;> split <;> simp

/-! The log, the classifier and the intake arbiter. -/

theorem State.handOver_pending (i : Nat) : (s.handOver i).pending = s.pending := rfl

theorem State.escalate_pending (i : Nat) : (s.escalate i).pending = s.pending := by
  unfold State.escalate; dsimp only; split <;> rfl

theorem State.appendUe_pending (a : UeAppend) : (s.appendUe a).pending = s.pending := by
  unfold State.appendUe
  split
  · unfold State.ueProposal
    split
    · exact State.propose_pending _ _ _
    · rfl
  · unfold State.loseUe
    dsimp only
    split <;> rfl

@[simp] theorem State.routeCorrected_pending (l : Loc) (cls : CeClass) (o : Origin) :
    (s.routeCorrected l cls o).pending = s.pending := by
  unfold State.routeCorrected
  split
  · rfl
  · simp

@[simp] theorem State.routeUncorrectable_pending (l : Loc) (cls : UeClass) (o : Origin) :
    (s.routeUncorrectable l cls o).pending = s.pending := s.appendUe_pending _

@[simp] theorem State.countMalformed_pending : (s.countMalformed ch).pending = s.pending := rfl

@[simp] theorem State.classifyError_pending (l : Loc) (cls : ErrClass) (o : Origin) :
    (s.classifyError l cls o).pending = s.pending := by
  unfold State.classifyError
  split
  · split <;> simp
  · rfl

@[simp] theorem State.malformedReply_pending (r : ScrubReply) (q : Request) : (s.malformedReply ch r q).pending = s.pending := by
  unfold State.malformedReply; dsimp only; split <;> simp

@[simp] theorem State.patrolReply_pending (r : ScrubReply) (q : Request) : (s.patrolReply ch r q).pending = s.pending := by
  unfold State.patrolReply; split <;> simp

@[simp] theorem State.verifyReply_pending (r : ScrubReply) (q : Request) : (s.verifyReply ch r q).pending = s.pending := by
  unfold State.verifyReply; dsimp only; split <;> simp

@[simp] theorem State.classifyReply_pending (r : ScrubReply) : (s.classifyReply ch r).pending = s.pending := by
  unfold State.classifyReply
  split
  · rfl
  · dsimp only
    split
    · simp
    · split <;> simp

@[simp] theorem State.classify_pending (r : Report) : (s.classify ch r).pending = s.pending := by
  unfold State.classify; split <;> simp

theorem State.takeFrom_pending : (s.takeFrom ch).pending = s.pending := by
  unfold State.takeFrom
  split
  · rfl
  · simp [State.serve]

theorem State.takeSlot_pending : s.takeSlot.pending = s.pending := by
  unfold State.takeSlot
  split
  · rfl
  · simp

theorem State.take_pending : s.take.pending = s.pending := by
  unfold State.take
  split
  · rfl
  · exact s.takeFrom_pending _
  · exact s.takeSlot_pending

/-! The engine and the Soft reset. -/

@[simp] theorem State.complete_pending (p : Port) (code : ResultCode) (result : Pages) :
    (s.complete p code result).pending = s.pending := by cases p <;> rfl

@[simp] theorem State.latch_pending (p : Port) : (s.latch p).pending = s.pending := by cases p <;> rfl

theorem State.drive_pending (p : Port) (v : Word) : (s.drive p v).pending = s.pending := by cases p <;> rfl

@[simp] theorem State.visit_pending (g : Purge) (i : CetIdx) : (s.visit g i).1.pending = s.pending := by
  unfold State.visit; split <;> simp

@[simp] theorem State.endPurge_pending (g : Purge) (n : Nat) : (s.endPurge g n).pending = s.pending := by
  unfold State.endPurge; dsimp only; split <;> simp

theorem State.purgeStep_pending (g : Purge) : (s.purgeStep g).pending = s.pending := by
  unfold State.purgeStep
  split
  · simp
  · dsimp only
    split <;> simp

theorem State.resyncAtReset_pending : (s.resyncAtReset ch).pending = s.pending := by
  unfold State.resyncAtReset; split <;> simp

theorem foldl_resyncAtReset_pending (chs : List Chan) : (chs.foldl State.resyncAtReset s).pending = s.pending := by
  induction chs generalizing s with
  | nil => rfl
  | cons ch rest ih => rw [List.foldl_cons, ih, State.resyncAtReset_pending]

theorem State.softReset_pending : s.softReset.pending = s.pending := foldl_resyncAtReset_pending _ _

end

/-! ### The bodies of the commands -/

/-- Whatever its port and parameters, a body keeps the queue of commands. -/
def BodyKeepsPending (body : Body) : Prop := ∀ p ps s, (body p ps s).1.pending = s.pending

section
variable {s : State} {w : Word}

theorem withChannel_pending {f : Chan → State × Answer} (h : ∀ ch, (f ch).1.pending = s.pending) :
    (withChannel s w f).1.pending = s.pending := by
  unfold withChannel
  split
  · rfl
  · exact h _

theorem withScrubChannel_pending {f : Chan → State × Answer} (h : ∀ ch, (f ch).1.pending = s.pending) :
    (withScrubChannel s w f).1.pending = s.pending := by
  unfold withScrubChannel
  split
  · rfl
  · exact h _

theorem withCetEntry_pending {f : CetIdx → CetEntry → State × Answer} (h : ∀ i e, (f i e).1.pending = s.pending) :
    (withCetEntry s w f).1.pending = s.pending := by
  unfold withCetEntry withCetIndex
  split
  · rfl
  · dsimp only
    split
    · rfl
    · exact h _ _

theorem withRetEntry_pending {needs : RetState} {f : RetIdx → RetEntry → State × Answer}
    (h : ∀ i e, (f i e).1.pending = s.pending) : (withRetEntry s w needs f).1.pending = s.pending := by
  unfold withRetEntry withRetIndex
  split
  · rfl
  · dsimp only
    split
    · rfl
    · split
      · exact h _ _
      · rfl

end

/-! The commands on the channels and on the tables. -/

theorem bodyLinkEnable_pending : BodyKeepsPending bodyLinkEnable := fun _ _ s => withChannel_pending fun ch => by
  split
  · exact s.enterSyncing_pending ch
  · rfl

theorem bodyLinkDisable_pending : BodyKeepsPending bodyLinkDisable := fun _ _ s => withChannel_pending fun ch => by
  split
  · rfl
  · exact (State.discardQueue_pending _ ch).trans (s.goDown_pending ch)

theorem bodyResyncLink_pending : BodyKeepsPending bodyResyncLink := fun _ _ s => withChannel_pending fun ch => by
  split
  · exact s.enterSyncing_pending ch
  · rfl

theorem bodyClearCetEntry_pending : BodyKeepsPending bodyClearCetEntry := fun _ _ s =>
  withCetEntry_pending fun i _ => s.freeEntry_pending i _

theorem bodyClearCetAll_pending : BodyKeepsPending bodyClearCetAll := fun _ _ s => s.freeAll_pending _ _

theorem bodyEngineReset_pending : BodyKeepsPending bodyEngineReset := fun _ _ s => s.softReset_pending

theorem bodyStartVerify_pending : BodyKeepsPending bodyStartVerify := fun _ _ s => withCetEntry_pending fun i e => by
  split
  · split
    · exact s.createJob_pending i e.key.channel
    · rfl
  · rfl

theorem bodyRejectRetire_pending : BodyKeepsPending bodyRejectRetire := fun _ _ s => withRetEntry_pending fun i e => by
  split
  · exact s.freeEntry_pending _ _
  · rfl

/-! The others only write fields of some blocks, or nothing, on each of their paths. -/

theorem bodyConfigureChannel_pending : BodyKeepsPending bodyConfigureChannel := fun _ _ _ => withChannel_pending fun _ => by
  dsimp only
  repeat' split
  all_goals rfl

theorem bodySetPolicy_pending : BodyKeepsPending bodySetPolicy := fun _ _ _ => by
  unfold bodySetPolicy PolicyWords.apply
  dsimp only
  repeat' split
  all_goals rfl

theorem bodyReadCet_pending : BodyKeepsPending bodyReadCet := fun _ _ _ => by
  unfold bodyReadCet withCetIndex
  split <;> rfl

theorem bodyFindCet_pending : BodyKeepsPending bodyFindCet := fun _ _ _ => by
  unfold bodyFindCet
  repeat' split
  all_goals rfl

theorem bodyPinCet_pending : BodyKeepsPending bodyPinCet := fun _ _ _ => withCetEntry_pending fun _ _ => by
  repeat' split
  all_goals rfl

theorem bodyReadRetire_pending : BodyKeepsPending bodyReadRetire := fun _ _ _ => by
  unfold bodyReadRetire withRetIndex
  split <;> rfl

theorem bodyFindRetire_pending : BodyKeepsPending bodyFindRetire := fun _ _ _ => by
  unfold bodyFindRetire
  repeat' split
  all_goals rfl

theorem bodyAddRetire_pending : BodyKeepsPending bodyAddRetire := fun _ _ _ => by
  unfold bodyAddRetire
  repeat' split
  all_goals rfl

theorem bodyReadUe_pending : BodyKeepsPending bodyReadUe := fun _ _ _ => by
  unfold bodyReadUe
  repeat' split
  all_goals rfl

theorem bodyAckUe_pending : BodyKeepsPending bodyAckUe := fun _ _ _ => by
  unfold bodyAckUe
  dsimp only
  repeat' split
  all_goals rfl

theorem bodyReadUeOverflow_pending : BodyKeepsPending bodyReadUeOverflow := fun _ _ _ => by
  unfold bodyReadUeOverflow
  dsimp only
  repeat' split
  all_goals rfl

theorem bodyScrubStart_pending : BodyKeepsPending bodyScrubStart := fun _ _ _ => withScrubChannel_pending fun _ => by
  repeat' split
  all_goals rfl

theorem bodySetCursor_pending : BodyKeepsPending bodySetCursor := fun _ _ _ => withScrubChannel_pending fun _ => by
  repeat' split
  all_goals rfl

theorem bodySetPacing_pending : BodyKeepsPending bodySetPacing := fun _ _ _ => withScrubChannel_pending fun _ => by
  dsimp only
  split <;> rfl

theorem bodySetHoldPolicy_pending : BodyKeepsPending bodySetHoldPolicy := fun _ _ _ => withScrubChannel_pending fun _ => by
  dsimp only
  repeat' split
  all_goals rfl

theorem bodySetTimeout_pending : BodyKeepsPending bodySetTimeout := fun _ _ _ => withScrubChannel_pending fun _ => by
  dsimp only
  split <;> rfl

theorem bodyReadCounters_pending : BodyKeepsPending bodyReadCounters := fun _ _ _ => withChannel_pending fun _ => by
  repeat' split
  all_goals rfl

theorem bodyInjectReport_pending : BodyKeepsPending bodyInjectReport := fun _ _ _ => by
  unfold bodyInjectReport
  repeat' split
  all_goals rfl

theorem bodySetAuthority_pending : BodyKeepsPending bodySetAuthority := fun _ _ _ => by
  unfold bodySetAuthority
  split <;> rfl

theorem bodySetServiceFirst_pending : BodyKeepsPending bodySetServiceFirst := fun _ _ _ => by
  unfold bodySetServiceFirst
  split <;> rfl

/-! ### Every command ends in a next state -/

/-- The outcome is a next state, with the same commands waiting. -/
def Completes (s : State) (o : Host.Outcome State Fault Refusal) : Prop := ∃ t, o = .next t ∧ t.pending = s.pending

section
variable {s : State}

/-- R184: an event, whether RST_N is asserted or not. -/
theorem event_completes {f : State → State} (h : (f s).pending = s.pending) : Completes s (s.whileRunning f) := by
  cases hr : s.rst with
  | true => exact ⟨s, State.whileRunning_held hr f, rfl⟩
  | false => exact ⟨f s, State.whileRunning_running hr f, h⟩

/-- An effect on a condition. -/
theorem ite_pending {p : Prop} [Decidable p] {t : State} (h : t.pending = s.pending) : (if p then t else s).pending = s.pending := by
  split
  · exact h
  · rfl

/-- R164, R165: the take of a command, by what its body keeps. -/
theorem State.engineTake_pending {body : Body} (hb : BodyKeepsPending body) (names : Word → Table Word 6 → Bool) (a : Admission) :
    (s.engineTake names a body).pending = s.pending := by
  unfold State.engineTake
  split
  · rfl
  · next p _ =>
    refine ite_pending ?_
    unfold State.carryOut
    split
    · have kept := (hb p ((s.latch p).mail p).latched (s.latch p)).trans (s.latch_pending p)
      generalize body p ((s.latch p).mail p).latched (s.latch p) = x at kept
      obtain ⟨t, ⟨code, result⟩ | _⟩ := x
      · exact (t.complete_pending p code result).trans kept
      · exact kept
    · exact (State.complete_pending _ p _ _).trans (s.latch_pending p)

theorem command_completes {body : Body} (hb : BodyKeepsPending body) (names : Word → Table Word 6 → Bool) (a : Admission) :
    Completes s (s.whileRunning fun s => s.engineTake names a body) :=
  event_completes (State.engineTake_pending hb names a)

theorem unknownKindFrame_completes (ch : Chan) (seq : BitVec 8) {kind : Byte} (hk : upstreamKind kind = false) :
    Completes s (execUnknownKindFrame ch seq kind s) := by
  rw [execUnknownKindFrame, hk, if_neg Bool.false_ne_true]
  exact event_completes (s.arrive_pending ch seq fun _ => rfl)

end

/-- Every well-formed command ends in a next state, with the commands behind it waiting. -/
theorem exec_completes (c : Instr) (s : State) (hw : c.wellFormed = true) : Completes s (exec c s) := by
  unfold exec
  cases c with
  | fullReset => exact ⟨_, rfl, rfl⟩
  | fullResetEnd => exact ⟨_, rfl, ite_pending rfl⟩
  | pacingBaseTick => exact event_completes rfl
  | eventClockAdvance => exact event_completes (ite_pending rfl)
  | commandWrite p | paramWrite p | mailboxStatusWrite p => exact event_completes (s.setMail_pending p _)
  | result0Read p edge =>
    refine event_completes ?_
    dsimp only
    split
    · exact (State.setMail_pending _ p _).trans (s.drive_pending p _)
    · exact s.drive_pending p _
  | eventClearWrite => exact event_completes rfl
  | lineMaskWrite p v => exact event_completes (s.setLineMask_pending p v)
  | registerWriteIgnored => exact ⟨s, if_pos hw, rfl⟩
  | badCommand | readStatus | clearFatal | scrubControlBadAction => exact command_completes (fun _ _ _ => rfl) _ _
  | configureChannel => exact command_completes bodyConfigureChannel_pending _ _
  | linkEnable => exact command_completes bodyLinkEnable_pending _ _
  | linkDisable => exact command_completes bodyLinkDisable_pending _ _
  | resyncLink => exact command_completes bodyResyncLink_pending _ _
  | setPolicy => exact command_completes bodySetPolicy_pending _ _
  | readCet => exact command_completes bodyReadCet_pending _ _
  | findCet => exact command_completes bodyFindCet_pending _ _
  | clearCetEntry => exact command_completes bodyClearCetEntry_pending _ _
  | clearCetAll => exact command_completes bodyClearCetAll_pending _ _
  | pinCet => exact command_completes bodyPinCet_pending _ _
  | unpinCet => exact command_completes (fun _ _ _ => withCetEntry_pending fun _ _ => rfl) _ _
  | startVerify => exact command_completes bodyStartVerify_pending _ _
  | readRetire => exact command_completes bodyReadRetire_pending _ _
  | findRetire => exact command_completes bodyFindRetire_pending _ _
  | addRetire => exact command_completes bodyAddRetire_pending _ _
  | confirmRetire | removeRetire => exact command_completes (fun _ _ _ => withRetEntry_pending fun _ _ => rfl) _ _
  | rejectRetire => exact command_completes bodyRejectRetire_pending _ _
  | readUe => exact command_completes bodyReadUe_pending _ _
  | ackUe => exact command_completes bodyAckUe_pending _ _
  | readUeOverflow => exact command_completes bodyReadUeOverflow_pending _ _
  | scrubStart => exact command_completes bodyScrubStart_pending _ _
  | scrubStop => exact command_completes (fun _ _ _ => withScrubChannel_pending fun _ => rfl) _ _
  | setCursor => exact command_completes bodySetCursor_pending _ _
  | setPacing => exact command_completes bodySetPacing_pending _ _
  | setHoldPolicy => exact command_completes bodySetHoldPolicy_pending _ _
  | setTimeout => exact command_completes bodySetTimeout_pending _ _
  | readCounters => exact command_completes bodyReadCounters_pending _ _
  | injectReport => exact command_completes bodyInjectReport_pending _ _
  | setAuthority => exact command_completes bodySetAuthority_pending _ _
  | setServiceFirst => exact command_completes bodySetServiceFirst_pending _ _
  | engineReset => exact command_completes bodyEngineReset_pending _ _
  | purgeVisit =>
    refine event_completes ?_
    split
    · rfl
    · exact s.purgeStep_pending _
  | error ch seq | scrubReply ch seq => exact event_completes (s.arrive_pending ch seq fun t => (t.accept ch).joinQueue_pending ch _)
  | hold ch seq | resume ch seq => exact event_completes (s.arrive_pending ch seq fun _ => rfl)
  | sync ch seq => exact event_completes (s.arriveSync_pending ch seq)
  | unknownKindFrame ch seq kind =>
    exact unknownKindFrame_completes ch seq (by simpa [Instr.wellFormed] using hw)
  | frameCheckFailure ch => exact event_completes (s.arriveFailing_pending ch)
  | syncAttemptExpiry ch => exact event_completes (ite_pending (s.attemptExpiry_pending ch))
  | frameTransmission ch =>
    refine event_completes ?_
    split <;> rfl
  | frameTransmissionEnd => exact event_completes rfl
  | intakeTake => exact event_completes s.take_pending
  | issueEvent ch => exact event_completes (s.issue_pending ch)
  | pacingExpiry => exact event_completes (ite_pending rfl)
  | replyTimeout ch tag =>
    refine event_completes ?_
    split
    · rfl
    · exact ite_pending (s.replyExpiry_pending ch tag _)
  | holdCeilingExpiry => exact event_completes (ite_pending rfl)
  | systemWindowExpiry => exact event_completes (ite_pending (s.handOver_pending _))
  | serviceWindowExpiry => exact event_completes (ite_pending (s.escalate_pending _))
  | leakExpiry => exact event_completes (ite_pending s.leakTable_pending)

/-- The two rows with a check of their operands, on a term that it refuses. -/
theorem exec_illFormed (c : Instr) (s : State) (hw : c.wellFormed = false) : exec c s = .refused .illFormed := by
  cases c with
  | registerWriteIgnored _ index => exact if_neg (Bool.eq_false_iff.mp hw)
  | unknownKindFrame _ _ kind => exact if_pos (by simpa [Instr.wellFormed] using hw)
  | _ => exact absurd hw Bool.noConfusion

/-- Settles O2: every meaning but two is an event or a take, and the two with a test of their own answer by it. -/
theorem everyCommandCompletes : Obligations.EveryCommandCompletes := by
  unfold Obligations.EveryCommandCompletes
  exact fun c s => ⟨exec_completes c s, exec_illFormed c s⟩

end Sys2Proof.Machine
